-- ==== Sys2Proof/Word.lean ====
section
/-! DEFINITION. The words the core moves (spec/00_scope.md R8, spec/20_memory.md R47): their widths only. -/

namespace Sys2Proof

/-- An unsigned 8-bit value (R8): a scan byte, a command byte, a keycode, a table entry. -/
abbrev Byte := BitVec 8

/-- A 9-bit key event as a KF slot stores it (R63): keycode in bits 7..0, type in bit 8. -/
abbrev KeyEvent := BitVec 9

/-- The 56-bit report value of the host port (R66). -/
abbrev Report := BitVec 56

/-- The 3-bit LED state (R31): bit 0 ScrollLock, bit 1 NumLock, bit 2 CapsLock. -/
abbrev LedMask := BitVec 3

/-- The pressed-key bitmap (R30): bit k is keycode k, 1 = pressed. -/
abbrev Bitmap := BitVec 256

end Sys2Proof
end

