-- ==== Sys2Proof/Config.lean ====
section
/-! DEFINITION. What the system around the core fixes or chooses: the parameters of spec/00_scope.md R6 with the
reference values of spec/44_scan_tables.md (R135 to R137), the steps the environment may offer (R11), and the free
values. -/

namespace Sys2Proof

/-- A constant table of 256 bytes (R41, R43, R133) written as the entries it lists: pairs of an index and the byte
stored there. What an index that is not listed holds is said where the table is read (`Machine.tableEntry`). -/
abbrev Table := List (Byte × Byte)

/-- The build-time parameters of R6. They are fixed before the first step and no step writes them (R158); `State`
carries them so that a statement over every state is a statement over every choice of them (log entry 2). -/
structure Params where
  /-- `N_B`: slots of BF. -/
  nB : Nat
  /-- `N_K`: slots of KF. -/
  nK : Nat
  /-- `NORMAL_TABLE`; an index not listed holds `KC_INVALID`. -/
  normalTable : Table
  /-- `EXT_TABLE`; an index not listed holds `KC_INVALID`. -/
  extTable : Table
  /-- `EMIT_UNMAPPED`. -/
  emitUnmapped : Bool
  /-- `KC_INVALID`: the "no mapping" sentinel. -/
  kcInvalid : Byte
  /-- `KC_PAUSE`. -/
  kcPause : Byte
  /-- `KC_SCROLL`. -/
  kcScroll : Byte
  /-- `KC_NUM`. -/
  kcNum : Byte
  /-- `KC_CAPS`. -/
  kcCaps : Byte
  /-- `KC_ROLLOVER`: the rollover-error sentinel. -/
  kcRollover : Byte
  /-- `TRANSFORM`; a keycode not listed maps to itself ("identity by default"). -/
  transform : Table
  /-- `REPORT_INTERVAL`, in TICK periods; 0 disables the heartbeat. -/
  reportInterval : Nat
  /-- `HB_W`: width of the heartbeat counter. -/
  hbW : Nat
  /-- `PULSE_W`: width of the diagnostic pulse counter. -/
  pulseW : Nat
  /-- `T_RTS` in microseconds: a lower bound on a real duration that no rule reads (R168). -/
  tRts : Nat
  deriving DecidableEq, Repr

/-- The reference `NORMAL_TABLE` of R136 (PRESUMED by the spec itself: from general knowledge), first column. -/
def Config.normalFirst : Table :=
  [(0x01, 0x42), (0x03, 0x3E), (0x04, 0x3C), (0x05, 0x3A), (0x06, 0x3B), (0x07, 0x45), (0x09, 0x43), (0x0A, 0x41)] ++
  [(0x0B, 0x3F), (0x0C, 0x3D), (0x0D, 0x2B), (0x0E, 0x35), (0x11, 0xE2), (0x12, 0xE1), (0x14, 0xE0), (0x15, 0x14)] ++
  [(0x16, 0x1E), (0x1A, 0x1D), (0x1B, 0x16), (0x1C, 0x04), (0x1D, 0x1A), (0x1E, 0x1F), (0x21, 0x06), (0x22, 0x1B)] ++
  [(0x23, 0x07), (0x24, 0x08), (0x25, 0x21), (0x26, 0x20), (0x29, 0x2C), (0x2A, 0x19), (0x2B, 0x09), (0x2C, 0x17)]

/-- The reference `NORMAL_TABLE` of R136, second column. -/
def Config.normalSecond : Table :=
  [(0x2D, 0x15), (0x2E, 0x22), (0x31, 0x11), (0x32, 0x05), (0x33, 0x0B), (0x34, 0x0A), (0x35, 0x1C), (0x36, 0x23)] ++
  [(0x3A, 0x10), (0x3B, 0x0D), (0x3C, 0x18), (0x3D, 0x24), (0x3E, 0x25), (0x41, 0x36), (0x42, 0x0E), (0x43, 0x0C)] ++
  [(0x44, 0x12), (0x45, 0x27), (0x46, 0x26), (0x49, 0x37), (0x4A, 0x38), (0x4B, 0x0F), (0x4C, 0x33), (0x4D, 0x13)] ++
  [(0x4E, 0x2D), (0x52, 0x34)]

/-- The reference `NORMAL_TABLE` of R136, third column. -/
def Config.normalThird : Table :=
  [(0x54, 0x2F), (0x55, 0x2E), (0x58, 0x39), (0x59, 0xE5), (0x5A, 0x28), (0x5B, 0x30), (0x5D, 0x31), (0x61, 0x64)] ++
  [(0x66, 0x2A), (0x69, 0x59), (0x6B, 0x5C), (0x6C, 0x5F), (0x70, 0x62), (0x71, 0x63), (0x72, 0x5A), (0x73, 0x5D)] ++
  [(0x74, 0x5E), (0x75, 0x60), (0x76, 0x29), (0x77, 0x53), (0x78, 0x44), (0x79, 0x57), (0x7A, 0x5B), (0x7B, 0x56)] ++
  [(0x7C, 0x55), (0x7D, 0x61), (0x7E, 0x47), (0x83, 0x40)]

/-- The reference `NORMAL_TABLE` (R136): 86 mapped entries. -/
def Config.referenceNormal : Table := Config.normalFirst ++ Config.normalSecond ++ Config.normalThird

/-- The reference `EXT_TABLE` (R137): 18 mapped entries. -/
def Config.referenceExt : Table :=
  [(0x11, 0xE6), (0x14, 0xE4), (0x1F, 0xE3), (0x27, 0xE7), (0x2F, 0x65), (0x4A, 0x54), (0x5A, 0x58), (0x69, 0x4D)] ++
  [(0x6B, 0x50), (0x6C, 0x4A), (0x70, 0x49), (0x71, 0x4C), (0x72, 0x51), (0x74, 0x4F), (0x75, 0x52), (0x7A, 0x4E)] ++
  [(0x7C, 0x46), (0x7D, 0x4B)]

/-- The parameters the reset state carries: the defaults of R6 and R135 to R137, and for the parameters R6 leaves
without a default the values of the spec's own examples (spec/95_test_vectors.md section 0). DESIGN CHOICE, log
entry 3. -/
def Config.reference : Params where
  nB := 4
  nK := 4
  normalTable := Config.referenceNormal
  extTable := Config.referenceExt
  emitUnmapped := false
  kcInvalid := 0x00
  kcPause := 0x48
  kcScroll := 0x47
  kcNum := 0x53
  kcCaps := 0x39
  kcRollover := 0x01
  transform := []
  reportInterval := 0
  hbW := 32
  pulseW := 32
  tRts := 100

/-- One step offered by the schedule to an agent (R11): which agent moves next and with what inputs. -/
inductive Event where
  /-- DEVICE: a falling clock edge with the data line sampled at `d` (R18). -/
  | edge (d : Bool)
  /-- DEC: the decoder polls BF (R93). -/
  | decStep
  /-- HOST: a request at the host port (R19, R61). -/
  | hostOp (op : BitVec 3) (a0 a1 : Byte)
  /-- FG: begin a request-to-send (R127). -/
  | fgRts
  /-- FG: end the request-to-send (R128). -/
  | fgPrime
  /-- FG: the wait ends (R129). -/
  | fgDone
  /-- TIMER: one period of the time base (R126). -/
  | tick
  deriving DecidableEq, Repr, Inhabited

/-- FREE VALUE (log entry 1): which agent the schedule lets move, for the n-th step that no placed event decides.
R10: "the schedule is free". -/
opaque Config.freeEvent : Nat → Event

/-- FREE VALUE (log entry 6): what a ring pointer that names no slot would read; no run from reset reads it. -/
opaque Config.absentSlot (w : Nat) : Nat → BitVec w

end Sys2Proof
end

