-- ==== Sys2Proof/Syntax.lean ====
section
/-! DEFINITION. The core's instructions: one constructor per row of spec/opcode_table.json, in the table's order. A row
is the decode key of one step (spec/30_encoding.md R57, R59, R61), a step with no operand (R11), or a command byte the
core transmits (R68). Every bit of a key that its row leaves open is an operand, also where the rule ignores it. -/

namespace Sys2Proof

/-- The instructions. -/
inductive Instr where
  /-- `RX_START` (R73): edge in `WaitStart`. -/
  | rxStart (d : Bool)
  /-- `RX_DATA` (R74): edge in `WaitData`n. -/
  | rxData (n : BitVec 3) (d : Bool)
  /-- `RX_PARITY` (R75): edge in `WaitParity`. -/
  | rxParity (d : Bool)
  /-- `RX_STOP` (R76): edge in `WaitStop`. -/
  | rxStop (d : Bool)
  /-- `TX_DATA` (R77): edge in `WaitSendData`n; `d` is ignored. -/
  | txData (n : BitVec 3) (d : Bool)
  /-- `TX_PARITY` (R78): edge in `WaitSendParity`; `d` is ignored. -/
  | txParity (d : Bool)
  /-- `TX_STOP` (R79): edge in `WaitSendStop`; `d` is ignored. -/
  | txStop (d : Bool)
  /-- `TX_ACK` (R80): edge in `WaitSendAck`. -/
  | txAck (d : Bool)
  /-- reserved `le_state` 00011 (R56). -/
  | reservedLe00011 (d : Bool)
  /-- reserved `le_state` 00111 (R56). -/
  | reservedLe00111 (d : Bool)
  /-- reserved `le_state` 10nnn (R56). -/
  | reservedLe10 (n : BitVec 3) (d : Bool)
  /-- `EDGE_DETACHED` (R72): any edge while `attached = 0`. -/
  | edgeDetached (d : Bool)
  /-- `D_EXT_PREFIX` (R96). -/
  | dExtPrefix
  /-- `D_BRK_PREFIX` (R97). -/
  | dBrkPrefix
  /-- `D_PAUSE_LEAD` (R98). -/
  | dPauseLead
  /-- `D_MAKE` (R99). -/
  | dMake (b : Byte)
  /-- `D_EXT_BRK_PREFIX` (R100). -/
  | dExtBrkPrefix
  /-- `D_PREFIX_ERR` (R104), the row of `D.WaitExtended`: byte 0xE0. -/
  | dPrefixErrExt
  /-- `D_EXT_MAKE` (R101). -/
  | dExtMake (b : Byte)
  /-- `D_PREFIX_ERR` (R104), the row of the two break states: `ext` 0 = `D.WaitBreak`, 1 = `D.WaitExtendedBreak`;
  `p` 0 = byte 0xE0, 1 = byte 0xF0. -/
  | dPrefixErrBrk (ext p : Bool)
  /-- `D_BREAK` (R102). -/
  | dBreak (b : Byte)
  /-- `D_EXT_BREAK` (R103). -/
  | dExtBreak (b : Byte)
  /-- `D_PAUSE_FILLER` (R105), the row of byte 0x14; `second` 0 = `D.WaitFirst77`, 1 = `D.WaitSecond77`. -/
  | dPauseFiller14 (second : Bool)
  /-- `D_PAUSE_FILLER` (R105), the row of byte 0xE1. -/
  | dPauseFillerE1 (second : Bool)
  /-- `D_PAUSE_FILLER` (R105), the row of byte 0xF0. -/
  | dPauseFillerF0 (second : Bool)
  /-- `D_PAUSE_77A` (R106). -/
  | dPause77A
  /-- `D_PAUSE_77B` (R107). -/
  | dPause77B
  /-- `D_PAUSE_ERR` (R108). -/
  | dPauseErr (second : Bool) (b : Byte)
  /-- reserved `dstate` 11x (R58). -/
  | reservedDstate (x : Bool) (b : Byte)
  /-- `AVAIL` (R116). -/
  | avail (a0 a1 : Byte)
  /-- `READ_REPORT` (R117). -/
  | readReport (a0 a1 : Byte)
  /-- `WRITE` (R118). -/
  | write (a0 a1 : Byte)
  /-- `WRITE_WAIT` (R119). -/
  | writeWait (a0 a1 : Byte)
  /-- `RESET_KBD` (R120). -/
  | resetKbd (a0 a1 : Byte)
  /-- `SET_TYPEMATIC` (R121). -/
  | setTypematic (a0 a1 : Byte)
  /-- `SET_LEDS` (R122). -/
  | setLeds (a0 a1 : Byte)
  /-- reserved op 111 (R123). -/
  | reservedOp111 (a0 a1 : Byte)
  /-- `DEC_STEP` (R93). -/
  | decStep
  /-- `FG_RTS` (R127). -/
  | fgRts
  /-- `FG_PRIME` (R128). -/
  | fgPrime
  /-- `FG_DONE` (R129). -/
  | fgDone
  /-- `TICK` (R126). -/
  | tick
  /-- `KBD_CMD_RESET` (R68): the command byte 0xFF. -/
  | kbdCmdReset
  /-- `KBD_CMD_TYPEMATIC` (R68): the command byte 0xF3. -/
  | kbdCmdTypematic
  /-- `KBD_CMD_SET_LEDS` (R68): the command byte 0xED. -/
  | kbdCmdSetLeds
  deriving DecidableEq, Repr

end Sys2Proof
end

