-- ==== Sys2Proof/WellFormed.lean ====
section
/-! DEFINITION. Which instruction terms stand for a decode key. The "other" rows of spec/30_encoding.md R59 match only a
byte that no earlier row of the same decoder state matched; every other row admits every value of its operands. -/

namespace Sys2Proof

/-- 0xE0 and 0xF0, the two prefix bytes (R15). -/
def isPrefixByte (b : Byte) : Bool := b == 0xE0 || b == 0xF0

/-- The bytes with a row of their own in `D.WaitStart` (R59). -/
def isStartByte (b : Byte) : Bool := isPrefixByte b || b == 0xE1

/-- The bytes with a row of their own in the two Pause states (R59): the fillers and 0x77. -/
def isPauseByte (b : Byte) : Bool := b == 0x14 || b == 0xE1 || b == 0xF0 || b == 0x77

/-- The instruction is one its encoding can spell (R59: "other" means any byte no earlier row of the same state
matched). -/
def Instr.wellFormed : Instr → Bool
  | .dMake b => !isStartByte b
  | .dExtMake b => !isPrefixByte b
  | .dBreak b => !isPrefixByte b
  | .dExtBreak b => !isPrefixByte b
  | .dPauseErr _ b => !isPauseByte b
  | .rxStart _ | .rxData _ _ | .rxParity _ | .rxStop _ | .txData _ _ | .txParity _ | .txStop _ | .txAck _ => true
  | .reservedLe00011 _ | .reservedLe00111 _ | .reservedLe10 _ _ | .edgeDetached _ => true
  | .dExtPrefix | .dBrkPrefix | .dPauseLead | .dExtBrkPrefix | .dPrefixErrExt | .dPrefixErrBrk _ _ => true
  | .dPauseFiller14 _ | .dPauseFillerE1 _ | .dPauseFillerF0 _ | .dPause77A | .dPause77B | .reservedDstate _ _ => true
  | .avail _ _ | .readReport _ _ | .write _ _ | .writeWait _ _ | .resetKbd _ _ | .setTypematic _ _ => true
  | .setLeds _ _ | .reservedOp111 _ _ => true
  | .decStep | .fgRts | .fgPrime | .fgDone | .tick | .kbdCmdReset | .kbdCmdTypematic | .kbdCmdSetLeds => true

end Sys2Proof
end

