-- ==== Sys2Proof/Decode.lean ====
section
/-! DEFINITION. The encodings of spec/30_encoding.md: the codes of the three state registers (R56, R58, R62), the decode
keys (R57, R59, R61, R68), the decoder, total on every key, and the encoder. -/

namespace Sys2Proof

/-! ### The codes of the state registers -/

/-- `WaitStart`, idle (R56). -/
@[simp] abbrev leWaitStart : BitVec 5 := 0b00000#5
/-- `WaitParity` (R56). -/
@[simp] abbrev leWaitParity : BitVec 5 := 0b00001#5
/-- `WaitStop` (R56). -/
@[simp] abbrev leWaitStop : BitVec 5 := 0b00010#5
/-- `WaitSendParity` (R56). -/
@[simp] abbrev leWaitSendParity : BitVec 5 := 0b00100#5
/-- `WaitSendStop` (R56). -/
@[simp] abbrev leWaitSendStop : BitVec 5 := 0b00101#5
/-- `WaitSendAck` (R56). -/
@[simp] abbrev leWaitSendAck : BitVec 5 := 0b00110#5
/-- `WaitData`n: 0b01000 + n (R56). -/
abbrev leWaitData (n : BitVec 3) : BitVec 5 := 0b01#2 ++ n
/-- `WaitSendData`n: 0b11000 + n (R56). -/
abbrev leWaitSendData (n : BitVec 3) : BitVec 5 := 0b11#2 ++ n

/-- `D.WaitStart` (R58). -/
@[simp] abbrev dWaitStart : BitVec 3 := 0b000#3
/-- `D.WaitExtended` (R58). -/
@[simp] abbrev dWaitExtended : BitVec 3 := 0b001#3
/-- `D.WaitBreak` (R58). -/
@[simp] abbrev dWaitBreak : BitVec 3 := 0b010#3
/-- `D.WaitExtendedBreak` (R58). -/
@[simp] abbrev dWaitExtendedBreak : BitVec 3 := 0b011#3
/-- `D.WaitFirst77` (R58). -/
@[simp] abbrev dWaitFirst77 : BitVec 3 := 0b100#3
/-- `D.WaitSecond77` (R58). -/
@[simp] abbrev dWaitSecond77 : BitVec 3 := 0b101#3

/-- `IDLE` (R62). -/
@[simp] abbrev fgIdle : BitVec 2 := 0b00#2
/-- `RTS` (R62). -/
@[simp] abbrev fgInRts : BitVec 2 := 0b01#2
/-- `WAIT` (R62). -/
@[simp] abbrev fgInWait : BitVec 2 := 0b10#2
/-- The reserved code of `fg_phase` (R62). -/
@[simp] abbrev fgReserved : BitVec 2 := 0b11#2

/-- The command bytes of R68. -/
@[simp] abbrev cmdReset : Byte := 0xFF#8
/-- Set typematic rate and delay (R68). -/
@[simp] abbrev cmdTypematic : Byte := 0xF3#8
/-- Set LEDs (R68). -/
@[simp] abbrev cmdSetLeds : Byte := 0xED#8

/-! ### Decode keys -/

/-- What a step is decoded from. -/
inductive Key where
  /-- An attached edge: `le_state ++ d` (R57). -/
  | edge (w : BitVec 6)
  /-- An edge while `attached = 0` (R57, R72): not decoded further. -/
  | edgeDetached (d : Bool)
  /-- A scan byte: `dstate ++ b` (R59). -/
  | decByte (w : BitVec 11)
  /-- A host request: `op ++ a0 ++ a1` (R61). -/
  | hostReq (w : BitVec 19)
  /-- A command byte the core transmits (R68). -/
  | kbdCmd (b : Byte)
  /-- The steps without operands, by name (R11). -/
  | decStep
  /-- See `decStep`. -/
  | fgRts
  /-- See `decStep`. -/
  | fgPrime
  /-- See `decStep`. -/
  | fgDone
  /-- See `decStep`. -/
  | tick
  deriving DecidableEq, Repr

/-- Why a key stands for no instruction. -/
inductive DecodeError where
  /-- The byte is none of the three command bytes of R68. -/
  | notACommandByte
  deriving DecidableEq, Repr

/-- R57: the operation of an attached edge, from `le_state ++ d`. Total: a reserved `le_state` has a row too. -/
def decodeEdge (w : BitVec 6) : Instr :=
  let le : BitVec 5 := w.extractLsb' 1 5
  let n : BitVec 3 := w.extractLsb' 1 3
  let d := w.getLsbD 0
  if le.extractLsb' 3 2 = 0b01#2 then .rxData n d
  else if le.extractLsb' 3 2 = 0b11#2 then .txData n d
  else if le.extractLsb' 3 2 = 0b10#2 then .reservedLe10 n d
  else if le = leWaitStart then .rxStart d
  else if le = leWaitParity then .rxParity d
  else if le = leWaitStop then .rxStop d
  else if le = leWaitSendParity then .txParity d
  else if le = leWaitSendStop then .txStop d
  else if le = leWaitSendAck then .txAck d
  else if le = 0b00011#5 then .reservedLe00011 d
  else .reservedLe00111 d

/-- R59: the operation of a scan byte, from `dstate ++ b`; the rows are tried in the order given. -/
def decodeDec (w : BitVec 11) : Instr :=
  let ds : BitVec 3 := w.extractLsb' 8 3
  let b : Byte := w.extractLsb' 0 8
  if ds = dWaitStart then
    if b = 0xE0 then .dExtPrefix
    else if b = 0xF0 then .dBrkPrefix
    else if b = 0xE1 then .dPauseLead
    else .dMake b
  else if ds = dWaitExtended then
    if b = 0xF0 then .dExtBrkPrefix
    else if b = 0xE0 then .dPrefixErrExt
    else .dExtMake b
  else if ds = dWaitBreak then
    if isPrefixByte b then .dPrefixErrBrk false (b.getLsbD 4) else .dBreak b
  else if ds = dWaitExtendedBreak then
    if isPrefixByte b then .dPrefixErrBrk true (b.getLsbD 4) else .dExtBreak b
  else if ds.extractLsb' 1 2 = 0b10#2 then
    if b = 0x14 then .dPauseFiller14 (ds.getLsbD 0)
    else if b = 0xE1 then .dPauseFillerE1 (ds.getLsbD 0)
    else if b = 0xF0 then .dPauseFillerF0 (ds.getLsbD 0)
    else if b = 0x77 then (if ds.getLsbD 0 then .dPause77B else .dPause77A)
    else .dPauseErr (ds.getLsbD 0) b
  else .reservedDstate (ds.getLsbD 0) b

/-- R61: the operation of a host request, from `op ++ a0 ++ a1`. -/
def decodeHost (w : BitVec 19) : Instr :=
  let op : BitVec 3 := w.extractLsb' 16 3
  let a0 : Byte := w.extractLsb' 8 8
  let a1 : Byte := w.extractLsb' 0 8
  if op = 0b000#3 then .avail a0 a1
  else if op = 0b001#3 then .readReport a0 a1
  else if op = 0b010#3 then .write a0 a1
  else if op = 0b011#3 then .writeWait a0 a1
  else if op = 0b100#3 then .resetKbd a0 a1
  else if op = 0b101#3 then .setTypematic a0 a1
  else if op = 0b110#3 then .setLeds a0 a1
  else .reservedOp111 a0 a1

/-- R68: the command bytes. -/
def decodeKbd (b : Byte) : Option Instr :=
  if b = cmdReset then some .kbdCmdReset
  else if b = cmdTypematic then some .kbdCmdTypematic
  else if b = cmdSetLeds then some .kbdCmdSetLeds
  else none

/-- The decoder: total on every key, rejecting by name. -/
def decode : Key → Except DecodeError Instr
  | .edge w => .ok (decodeEdge w)
  | .edgeDetached d => .ok (.edgeDetached d)
  | .decByte w => .ok (decodeDec w)
  | .hostReq w => .ok (decodeHost w)
  | .kbdCmd b =>
    match decodeKbd b with
    | some i => .ok i
    | none => .error .notACommandByte
  | .decStep => .ok .decStep
  | .fgRts => .ok .fgRts
  | .fgPrime => .ok .fgPrime
  | .fgDone => .ok .fgDone
  | .tick => .ok .tick

/-! ### The encoder -/

/-- `le_state ++ d` (R57). -/
def edgeKey (le : BitVec 5) (d : Bool) : BitVec 6 := le ++ BitVec.ofBool d

/-- `dstate ++ b` (R59). -/
def decKey (ds : BitVec 3) (b : Byte) : BitVec 11 := ds ++ b

/-- `op ++ a0 ++ a1` (R61). -/
def hostKey (op : BitVec 3) (a0 a1 : Byte) : BitVec 19 := op ++ a0 ++ a1

/-- 0xE0 or 0xF0, told apart by bit 4 (R59). -/
def prefixOf (p : Bool) : Byte := if p then 0xF0 else 0xE0

/-- The key of an instruction, from the tables of R57, R59, R61 and R68. -/
def encode : Instr → Key
  | .rxStart d => .edge (edgeKey leWaitStart d)
  | .rxData n d => .edge (edgeKey (leWaitData n) d)
  | .rxParity d => .edge (edgeKey leWaitParity d)
  | .rxStop d => .edge (edgeKey leWaitStop d)
  | .txData n d => .edge (edgeKey (leWaitSendData n) d)
  | .txParity d => .edge (edgeKey leWaitSendParity d)
  | .txStop d => .edge (edgeKey leWaitSendStop d)
  | .txAck d => .edge (edgeKey leWaitSendAck d)
  | .reservedLe00011 d => .edge (edgeKey 0b00011#5 d)
  | .reservedLe00111 d => .edge (edgeKey 0b00111#5 d)
  | .reservedLe10 n d => .edge (edgeKey (0b10#2 ++ n) d)
  | .edgeDetached d => .edgeDetached d
  | .dExtPrefix => .decByte (decKey dWaitStart 0xE0)
  | .dBrkPrefix => .decByte (decKey dWaitStart 0xF0)
  | .dPauseLead => .decByte (decKey dWaitStart 0xE1)
  | .dMake b => .decByte (decKey dWaitStart b)
  | .dExtBrkPrefix => .decByte (decKey dWaitExtended 0xF0)
  | .dPrefixErrExt => .decByte (decKey dWaitExtended 0xE0)
  | .dExtMake b => .decByte (decKey dWaitExtended b)
  | .dPrefixErrBrk ext p => .decByte (decKey (0b01#2 ++ BitVec.ofBool ext) (prefixOf p))
  | .dBreak b => .decByte (decKey dWaitBreak b)
  | .dExtBreak b => .decByte (decKey dWaitExtendedBreak b)
  | .dPauseFiller14 second => .decByte (decKey (0b10#2 ++ BitVec.ofBool second) 0x14)
  | .dPauseFillerE1 second => .decByte (decKey (0b10#2 ++ BitVec.ofBool second) 0xE1)
  | .dPauseFillerF0 second => .decByte (decKey (0b10#2 ++ BitVec.ofBool second) 0xF0)
  | .dPause77A => .decByte (decKey dWaitFirst77 0x77)
  | .dPause77B => .decByte (decKey dWaitSecond77 0x77)
  | .dPauseErr second b => .decByte (decKey (0b10#2 ++ BitVec.ofBool second) b)
  | .reservedDstate x b => .decByte (decKey (0b11#2 ++ BitVec.ofBool x) b)
  | .avail a0 a1 => .hostReq (hostKey 0b000#3 a0 a1)
  | .readReport a0 a1 => .hostReq (hostKey 0b001#3 a0 a1)
  | .write a0 a1 => .hostReq (hostKey 0b010#3 a0 a1)
  | .writeWait a0 a1 => .hostReq (hostKey 0b011#3 a0 a1)
  | .resetKbd a0 a1 => .hostReq (hostKey 0b100#3 a0 a1)
  | .setTypematic a0 a1 => .hostReq (hostKey 0b101#3 a0 a1)
  | .setLeds a0 a1 => .hostReq (hostKey 0b110#3 a0 a1)
  | .reservedOp111 a0 a1 => .hostReq (hostKey 0b111#3 a0 a1)
  | .decStep => .decStep
  | .fgRts => .fgRts
  | .fgPrime => .fgPrime
  | .fgDone => .fgDone
  | .tick => .tick
  | .kbdCmdReset => .kbdCmd cmdReset
  | .kbdCmdTypematic => .kbdCmd cmdTypematic
  | .kbdCmdSetLeds => .kbdCmd cmdSetLeds

/-! ### Words as spec/opcode_table.json numbers them -/

/-- The key a word of the opcode table spells (log entry 5): the format is told from the word's width in whole bytes:
one byte a 6-bit edge key or, with a bit above it set, a command byte; two bytes an 11-bit decoder key; three bytes a
19-bit host request. A word with a bit above its format's key spells nothing. -/
def keyOfWord (nbits w : Nat) : Option Key :=
  match (nbits + 7) / 8 with
  | 1 =>
    if w < 64 then some (.edge (BitVec.ofNat 6 w))
    else if w < 256 then some (.kbdCmd (BitVec.ofNat 8 w))
    else none
  | 2 => if w < 2048 then some (.decByte (BitVec.ofNat 11 w)) else none
  | 3 => if w < 524288 then some (.hostReq (BitVec.ofNat 19 w)) else none
  | _ => none

/-- The instruction the decoder reads from a word of the opcode table; none where the decoder refuses it. -/
def decodeTableWord (nbits w : Nat) : Option Instr :=
  match keyOfWord nbits w with
  | some k =>
    match decode k with
    | .ok i => some i
    | .error _ => none
  | none => none

end Sys2Proof
end

