-- ==== Sys2Proof/Machine/State.lean ====
section
/-! DEFINITION. The state of the core (spec/10_state.md R17, R34) as plain data, its stops, and the reset state
(spec/70_reset_and_hazards.md R155). -/

namespace Sys2Proof.Machine

/-- No step of the core faults (R13, R142): the type has no constructor, so no step of this model can fault. -/
inductive Fault where
  deriving DecidableEq, Repr

/-- Why a step is refused. -/
inductive Refusal where
  /-- Raised by an arm of `exec` whose instruction has no meaning yet; no arm does. Safe. -/
  | notModelled (mnemonic : String)
  /-- Raised by the rows of a reserved `le_state` (R56: "a model that meets one refuses the step"). Safe: no state a
  run from reset reaches holds one. -/
  | reservedLeState
  /-- Raised by `DEC_STEP` and by the row of a reserved `dstate` (R58: "unreachable; a model refuses"). Safe. -/
  | reservedDstate
  /-- Raised by the FG steps and the host operations, which read `fg_phase`, when it holds its reserved code (R62:
  "unreachable; a model refuses"). Safe. -/
  | reservedFgPhase
  deriving DecidableEq, Repr

/-- The eight errors the core raises (R67, R139); `errCode` of Machine/Operands.lean gives each its 4-bit code. -/
inductive ErrCode where
  /-- `ERR_BAD_START`. -/
  | badStart
  /-- `ERR_BAD_PARITY`. -/
  | badParity
  /-- `ERR_BAD_STOP`. -/
  | badStop
  /-- `ERR_INVALID_ACK`. -/
  | invalidAck
  /-- `ERR_BYTE_OVERFLOW`. -/
  | byteOverflow
  /-- `ERR_DECODE_PREFIX`. -/
  | decodePrefix
  /-- `ERR_DECODE_PAUSE`. -/
  | decodePause
  /-- `ERR_KEY_OVERFLOW`. -/
  | keyOverflow
  deriving DecidableEq, Repr

/-- The responses of R114. -/
inductive Resp where
  /-- `Count(n)`. -/
  | count (n : Nat)
  /-- `Report(rpt)`. -/
  | report (rpt : Report)
  /-- `Done`. -/
  | done
  deriving DecidableEq, Repr

/-- A ring buffer (R86): its slots and its two pointers, the indexes of the slots they name. -/
structure Ring (w : Nat) where
  slots : List (BitVec w)
  head : Nat
  tail : Nat
  deriving DecidableEq, Repr

/-- Everything the spec gives the core (R17, R34), the build parameters it carries unchanged (R6), and the two fields
of the model itself that say which step comes next. -/
structure State where
  /-- The parameters of R6; no step writes them. -/
  params : Params
  /-- LE `le_state` (R20). -/
  leState : BitVec 5
  /-- LE `current` (R21). -/
  current : Byte
  /-- LE `parity` (R22). -/
  parity : Bool
  /-- LE `txbuf` (R23). -/
  txbuf : Byte
  /-- LE `rts` (R23). -/
  rts : Bool
  /-- LE `attached` (R24). -/
  attached : Bool
  /-- LE `clk_drive_low` (R25), an output. -/
  clkDriveLow : Bool
  /-- LE `data_drive_low` (R25), an output. -/
  dataDriveLow : Bool
  /-- LE `pulse_count` (R26): a value below 2^PULSE_W. -/
  pulseCount : Nat
  /-- BF: `bf_slot`, `bf_head`, `bf_tail` (R27). -/
  bf : Ring 8
  /-- DEC `dstate` (R28). -/
  dstate : BitVec 3
  /-- KF: `kf_slot`, `kf_head`, `kf_tail` (R29). -/
  kf : Ring 9
  /-- KSM `BM` (R30). -/
  bm : Bitmap
  /-- KSM `leds` (R31). -/
  leds : LedMask
  /-- KSM `hb_count` (R32): a value below 2^HB_W. -/
  hbCount : Nat
  /-- FG `fg_phase` (R33, R62). -/
  fgPhase : BitVec 2
  /-- FG `txq_len` (R33). -/
  txqLen : BitVec 2
  /-- FG `txq[0]` (R33). -/
  txq0 : Byte
  /-- FG `txq[1]` (R33). -/
  txq1 : Byte
  /-- FG `fg_wait` (R33). -/
  fgWait : Bool
  /-- FG `pend_valid` (R33). -/
  pendValid : Bool
  /-- FG `pend_rpt` (R33). -/
  pendRpt : Report
  /-- The error history `errlog`: the 4-bit codes recorded, oldest first (R34, R67, R140). -/
  errlog : List (BitVec 4)
  /-- The response history `resp`, oldest first (R34, R114). -/
  resp : List Resp
  /-- THE MODEL'S OWN: steps the environment has already chosen, the next one first (log entry 1). -/
  events : List Event
  /-- THE MODEL'S OWN: how many steps the free schedule has chosen (log entry 1). -/
  eventPos : Nat
  deriving DecidableEq, Repr

/-- The outcome of one step. -/
abbrev Result := Host.Outcome State Fault Refusal

/-- The state right after reset (R155). The registers R155 leaves unspecified (`current`, `parity`, `txbuf`, the slots,
`txq`, `pend_rpt`) hold zeros (DESIGN CHOICE, log entry 4); the parameters are the reference ones (log entry 3). -/
def State.reset : State where
  params := Config.reference
  leState := leWaitStart
  current := 0
  parity := false
  txbuf := 0
  rts := false
  attached := true
  clkDriveLow := false
  dataDriveLow := false
  pulseCount := 0
  bf := { slots := List.replicate 4 0, head := 0, tail := 0 }
  dstate := dWaitStart
  kf := { slots := List.replicate 4 0, head := 0, tail := 0 }
  bm := 0
  leds := 0
  hbCount := 0
  fgPhase := fgIdle
  txqLen := 0
  txq0 := 0
  txq1 := 0
  fgWait := false
  pendValid := false
  pendRpt := 0
  errlog := []
  resp := []
  events := []
  eventPos := 0

end Sys2Proof.Machine
end

