-- ==== Sys2Proof/Machine/Flags.lean ====
section
/-! DEFINITION. The core's 1-bit status values (spec/10_state.md R37) and the tests the rules make: parity, ring full and
empty, `fg_busy`, the send states, the heartbeat. -/

namespace Sys2Proof.Machine

/-- The number of 1 bits of a byte (R8). -/
def popcount (b : Byte) : Nat := ((List.range 8).filter (fun i => b.getLsbD i)).length

/-- `odd_parity(b) = 1 ^ (popcount(b) mod 2)` (R55). -/
def oddParity (b : Byte) : Bool := Bool.xor true (popcount b % 2 == 1)

/-- `adv(p) = (p + 1) mod N` (R86). -/
def adv (n p : Nat) : Nat := (p + 1) % n

/-- `R.full()` (R89). -/
def Ring.full {w : Nat} (n : Nat) (r : Ring w) : Bool := adv n r.head == r.tail

/-- `R.empty()` (R89). -/
def Ring.empty {w : Nat} (r : Ring w) : Bool := r.head == r.tail

/-- `R.count() = (R.head - R.tail + N) mod N` (R90). -/
def Ring.count {w : Nat} (n : Nat) (r : Ring w) : Nat := (r.head + n - r.tail) % n

/-- `BF.count()`. -/
def State.bfCount (s : State) : Nat := s.bf.count s.params.nB

/-- `KF.count()`. -/
def State.kfCount (s : State) : Nat := s.kf.count s.params.nK

/-- `fg_busy = (fg_phase ≠ IDLE) or (txq_len ≠ 0)` (R19). -/
def State.fgBusy (s : State) : Bool := s.fgPhase != fgIdle || s.txqLen != 0

/-- The send states: `le_state[4] = 1` or `le_state[4:2] = 0b001` (R56). -/
def isSendState (le : BitVec 5) : Bool := le.getLsbD 4 || le.extractLsb' 2 3 == 0b001#3

/-- A heartbeat is due: `REPORT_INTERVAL ≠ 0` and `hb_count ≥ REPORT_INTERVAL` (R149). -/
def State.heartbeatDue (s : State) : Bool :=
  s.params.reportInterval != 0 && decide (s.params.reportInterval ≤ s.hbCount)

/-- `FG_RTS` is enabled (R127). -/
def State.rtsEnabled (s : State) : Bool := s.fgPhase == fgIdle && s.txqLen != 0

/-- `FG_PRIME` is enabled (R128). -/
def State.primeEnabled (s : State) : Bool := s.fgPhase == fgInRts

/-- `FG_DONE` is enabled (R129). -/
def State.doneEnabled (s : State) : Bool := s.fgPhase == fgInWait && !isSendState s.leState

end Sys2Proof.Machine
end

