-- ==== Sys2Proof/Machine/Operands.lean ====
section
/-! DEFINITION. The operand and value forms of the rules: shifting a bit in or out, key events, error codes, table lookups, bitmap
bits, host operand bits, and the report (spec/30_encoding.md sections 4 and 5, spec/20_memory.md R42 to R45). -/

namespace Sys2Proof.Machine

/-- `d ++ v[7:1]`: a right shift with `d` into bit 7 (R74, R77). -/
def shiftIn (d : Bool) (v : Byte) : Byte := BitVec.ofBool d ++ v.extractLsb' 1 7

/-- A key event as a KF slot stores it (R63): type bit 0 = Pressed, 1 = Released. -/
def packEvent (released : Bool) (k : Byte) : KeyEvent := BitVec.ofBool released ++ k

/-- The keycode of a key event, bits 7..0 (R63). -/
def eventKey (e : KeyEvent) : Byte := e.extractLsb' 0 8

/-- Whether a key event is a release, bit 8 (R63). -/
def eventReleased (e : KeyEvent) : Bool := e.getLsbD 8

/-- The 4-bit code that records an error (R67); 0x0 and 0x9 to 0xF are never produced. -/
@[simp] def errCode : ErrCode → BitVec 4
  | .badStart => 0x1
  | .badParity => 0x2
  | .badStop => 0x3
  | .invalidAck => 0x4
  | .byteOverflow => 0x5
  | .decodePrefix => 0x6
  | .decodePause => 0x7
  | .keyOverflow => 0x8

/-- The byte a constant table holds at an index; an index not listed holds `dflt`. -/
def tableEntry (dflt : Byte) : Table → Byte → Byte
  | [], _ => dflt
  | (i, v) :: rest, b => if b = i then v else tableEntry dflt rest b

/-- `lookup(T, b)` (R94): the keycode stored, or none (unmapped) where the stored value is `KC_INVALID`. -/
def lookup (p : Params) (t : Table) (b : Byte) : Option Byte :=
  let v := tableEntry p.kcInvalid t b
  if v = p.kcInvalid then none else some v

/-- `TRANSFORM(k)` (R43): identity where the table lists nothing. -/
def transformKey (p : Params) (k : Byte) : Byte := tableEntry k p.transform k

/-- The LED a lock key toggles (R117): 0 ScrollLock, 1 NumLock, 2 CapsLock; none for every other keycode. -/
def lockLed (p : Params) (k : Byte) : Option Nat :=
  if k = p.kcScroll then some 0
  else if k = p.kcNum then some 1
  else if k = p.kcCaps then some 2
  else none

/-- `leds ^ (1 << i)` (R117). -/
def toggleLed (leds : LedMask) (i : Nat) : LedMask := leds ^^^ (1#3 <<< i)

/-- `(leds & ~m) | (v & m)` with `m = a0[2:0]`, `v = a1[2:0]` (R122). -/
def mergeLeds (leds : LedMask) (a0 a1 : Byte) : LedMask :=
  let m : LedMask := a0.extractLsb' 0 3
  let v : LedMask := a1.extractLsb' 0 3
  (leds &&& ~~~m) ||| (v &&& m)

/-- `zext_8(leds)`: the mask byte of the 0xED command (R68). -/
def ledByte (leds : LedMask) : Byte := leds.setWidth 8

/-- `BM[k]` (R42). -/
def bmRead (bm : Bitmap) (k : Byte) : Bool := bm.getLsbD k.toNat

/-- `BM[k] <- v` (R42): that one bit and no other. -/
def bmWrite (bm : Bitmap) (k : Byte) (v : Bool) : Bitmap :=
  if v then bm ||| (1#256 <<< k.toNat) else bm &&& ~~~(1#256 <<< k.toNat)

/-- The modifier keycodes 0xE0..0xE7 (R64). -/
def isModifier (k : Byte) : Bool := k.extractLsb' 3 5 == 0b11100#5

/-- The pressed non-modifier keycodes in ascending order, 0x00 included: the list `L` of R124. -/
def pressedKeys (bm : Bitmap) : List Byte :=
  ((List.range 256).map (BitVec.ofNat 8)).filter (fun k => !isModifier k && bmRead bm k)

/-- `BM[0xE7] ++ ... ++ BM[0xE0]` (R65, R124). -/
def modifierByte (bm : Bitmap) : Byte := bm.extractLsb' 0xE0 8

/-- Keycode slot j of a report (R124, R125): the sentinel in all six slots when more than six keys are pressed, else
the j-th pressed key, else 0x00. -/
def reportSlot (rollover : Byte) (keys : List Byte) (j : Nat) : Byte :=
  if 6 < keys.length then rollover else keys.getD j 0

/-- `slots[5] ++ ... ++ slots[0] ++ mods` (R66, R124). -/
def packReport (mods : Byte) (slot : Nat → Byte) : Report :=
  slot 5 ++ slot 4 ++ slot 3 ++ slot 2 ++ slot 1 ++ slot 0 ++ mods

/-- `format_report(BM)` (R124). -/
def formatReport (p : Params) (bm : Bitmap) : Report :=
  packReport (modifierByte bm) (reportSlot p.kcRollover (pressedKeys bm))

end Sys2Proof.Machine
end

