-- ==== Sys2Proof/Machine/Ops.lean ====
section
/-! DEFINITION. The named operations the meanings share: raising an error and answering the host, the rings, and the four
ways a step of an agent is taken (spec/00_scope.md R9 to R13). The core takes no exception and returns from none
(spec/60_exceptions.md R144, R147): its errors are events, and `raiseErr` is the one operation that records one. -/

namespace Sys2Proof.Machine

/-! ### The histories -/

/-- `raise E` (R9, R140): appends the error's 4-bit code to the history and nothing else; the step goes on. -/
def raiseErr (e : ErrCode) (s : State) : State := { s with errlog := s.errlog ++ [errCode e] }

/-- `emit x` (R9, R114). -/
def emitResp (x : Resp) (s : State) : State := { s with resp := s.resp ++ [x] }

/-! ### The rings -/

/-- The producer's write into a ring with room (R87): the slot, then the head. -/
def Ring.put {w : Nat} (n : Nat) (v : BitVec w) (r : Ring w) : Ring w :=
  { r with slots := r.slots.set r.head v, head := adv n r.head }

/-- The oldest entry (R88). A tail that names no slot reads a free value (log entry 6). -/
def Ring.front {w : Nat} (r : Ring w) : BitVec w := r.slots.getD r.tail (Config.absentSlot w r.tail)

/-- The consumer's advance of the tail (R88). -/
def Ring.drop {w : Nat} (n : Nat) (r : Ring w) : Ring w := { r with tail := adv n r.tail }

/-- `BF.push(v)` (R87): a full ring drops `v` and raises one error. -/
def pushBf (v : Byte) (s : State) : State :=
  if s.bf.full s.params.nB then raiseErr .byteOverflow s else { s with bf := s.bf.put s.params.nB v }

/-- `KF.push(e)` (R87). -/
def pushKf (e : KeyEvent) (s : State) : State :=
  if s.kf.full s.params.nK then raiseErr .keyOverflow s else { s with kf := s.kf.put s.params.nK e }

/-- The pointer write of `BF.pop()` (R88); the byte popped is `s.bf.front`. -/
def popBf (s : State) : State := { s with bf := s.bf.drop s.params.nB }

/-- The pointer write of `KF.pop()` (R88); the event popped is `s.kf.front`. -/
def popKf (s : State) : State := { s with kf := s.kf.drop s.params.nK }

/-! ### How a step of each agent is taken -/

/-- An `EDGE` (R71, R72): detached, nothing changes; attached, the counter increments modulo 2^PULSE_W and then the one
operation `f` is performed. -/
def edgeStep (f : State → State) (s : State) : Result :=
  .next (if s.attached then f { s with pulseCount := (s.pulseCount + 1) % 2 ^ s.params.pulseW } else s)

/-- A `DEC_STEP` (R93): pops one byte and performs `f`; with BF empty it is not enabled and DEC has no move (R13, log
entry 7). -/
def decByteStep (f : State → State) (s : State) : Result :=
  .next (if 0 < s.bfCount then f (popBf s) else s)

/-- A `HOST_OP` (R113): enabled exactly when `fg_busy = 0`; while busy the host has no move (log entry 7). The reserved
`fg_phase` is refused (R62). -/
def hostStep (f : State → State) (s : State) : Result :=
  if s.fgPhase = fgReserved then .refused .reservedFgPhase
  else .next (if s.fgBusy then s else f s)

/-- An FG step (R127 to R129) with its enabling condition; not enabled, FG has no move (log entry 7). The reserved
`fg_phase` is refused (R62). -/
def fgStep (enabled : Bool) (f : State → State) (s : State) : Result :=
  if s.fgPhase = fgReserved then .refused .reservedFgPhase
  else .next (if enabled then f s else s)

/-! ### The command sequencer's helpers -/

/-- `start_seq(bytes, wait, rpt)` (R115). -/
def startSeq (b0 : Byte) (b1 : Option Byte) (wait : Bool) (rpt : Option Report) (s : State) : State :=
  { s with
    txq0 := b0
    txq1 := b1.getD s.txq1
    txqLen := if b1.isSome then 2 else 1
    fgWait := wait
    pendValid := rpt.isSome
    pendRpt := rpt.getD s.pendRpt }

/-- `fg_finish()` (R130). -/
def fgFinish (s : State) : State :=
  if s.pendValid then emitResp (.report s.pendRpt) { s with pendValid := false } else emitResp .done s

/-- `TX_RTS(b)` (R81). -/
def txRts (b : Byte) (s : State) : State :=
  { s with attached := false, clkDriveLow := true, dataDriveLow := true, txbuf := b, rts := true }

/-- `TX_PRIME` (R82). -/
def txPrime (s : State) : State :=
  { s with
    leState := leWaitSendData 0
    current := s.txbuf
    parity := true
    clkDriveLow := false
    attached := true
    rts := false }

end Sys2Proof.Machine
end

