-- ==== Sys2Proof/Machine/Decoder.lean ====
section
/-! DEFINITION. The scan-code decoder: the meanings of the scan-byte rows and of `DEC_STEP` (spec/42_decoder.md R93 to
R108). Each row's meaning pops its byte itself, because a row is one whole `DEC_STEP`. -/

namespace Sys2Proof.Machine

/-- The push of `emit_event(x, type)` (R95): an unmapped byte leaves nothing unless `EMIT_UNMAPPED`, and then carries
`KC_INVALID`. -/
def pushEvent (x : Option Byte) (released : Bool) (s : State) : State :=
  match x with
  | some k => pushKf (packEvent released k) s
  | none => if s.params.emitUnmapped then pushKf (packEvent released s.params.kcInvalid) s else s

/-- `emit_event(x, type)` (R95): the push, then `dstate <- D.WaitStart` in every case. -/
def emitEvent (x : Option Byte) (released : Bool) (s : State) : State :=
  { pushEvent x released s with dstate := dWaitStart }

/-- `D_EXT_PREFIX` (R96). -/
def execDExtPrefix (s : State) : Result := decByteStep (fun s => { s with dstate := dWaitExtended }) s

/-- `D_BRK_PREFIX` (R97). -/
def execDBrkPrefix (s : State) : Result := decByteStep (fun s => { s with dstate := dWaitBreak }) s

/-- `D_PAUSE_LEAD` (R98). -/
def execDPauseLead (s : State) : Result := decByteStep (fun s => { s with dstate := dWaitFirst77 }) s

/-- `D_MAKE` (R99). -/
def execDMake (b : Byte) (s : State) : Result :=
  decByteStep (fun s => emitEvent (lookup s.params s.params.normalTable b) false s) s

/-- `D_EXT_BRK_PREFIX` (R100). -/
def execDExtBrkPrefix (s : State) : Result := decByteStep (fun s => { s with dstate := dWaitExtendedBreak }) s

/-- What every row of `D_PREFIX_ERR` does with its popped byte (R104): the error and the idle state. -/
def prefixError (s : State) : State := raiseErr .decodePrefix { s with dstate := dWaitStart }

/-- `D_PREFIX_ERR` in `D.WaitExtended` (R104). -/
def execDPrefixErrExt (s : State) : Result := decByteStep prefixError s

/-- `D_EXT_MAKE` (R101). -/
def execDExtMake (b : Byte) (s : State) : Result :=
  decByteStep (fun s => emitEvent (lookup s.params s.params.extTable b) false s) s

/-- `D_PREFIX_ERR` in the two break states (R104). -/
def execDPrefixErrBrk (_ext _p : Bool) (s : State) : Result := decByteStep prefixError s

/-- `D_BREAK` (R102). -/
def execDBreak (b : Byte) (s : State) : Result :=
  decByteStep (fun s => emitEvent (lookup s.params s.params.normalTable b) true s) s

/-- `D_EXT_BREAK` (R103). -/
def execDExtBreak (b : Byte) (s : State) : Result :=
  decByteStep (fun s => emitEvent (lookup s.params s.params.extTable b) true s) s

/-- `D_PAUSE_FILLER`, byte 0x14 (R105): nothing but the pop. -/
def execDPauseFiller14 (_second : Bool) (s : State) : Result := decByteStep (fun s => s) s

/-- `D_PAUSE_FILLER`, byte 0xE1 (R105): nothing but the pop. -/
def execDPauseFillerE1 (_second : Bool) (s : State) : Result := decByteStep (fun s => s) s

/-- `D_PAUSE_FILLER`, byte 0xF0 (R105): nothing but the pop. -/
def execDPauseFillerF0 (_second : Bool) (s : State) : Result := decByteStep (fun s => s) s

/-- `D_PAUSE_77A` (R106). -/
def execDPause77A (s : State) : Result := decByteStep (fun s => { s with dstate := dWaitSecond77 }) s

/-- `D_PAUSE_77B` (R107): no table is read. -/
def execDPause77B (s : State) : Result := decByteStep (fun s => emitEvent (some s.params.kcPause) false s) s

/-- `D_PAUSE_ERR` (R108). -/
def execDPauseErr (_second : Bool) (_b : Byte) (s : State) : Result :=
  decByteStep (fun s => raiseErr .decodePause { s with dstate := dWaitStart }) s

/-- reserved `dstate` 11x (R58): refused. -/
def execReservedDstate (_x : Bool) (_b : Byte) (_s : State) : Result := .refused .reservedDstate

/-- `DEC_STEP` (R93): with a byte in BF, the one operation that `dstate` and the byte select by the rows of R59, tried
in order; with none, no move. -/
def execDecStep (s : State) : Result :=
  let b := s.bf.front
  if s.bfCount = 0 then .next s
  else if s.dstate = dWaitStart then
    if b = 0xE0 then execDExtPrefix s
    else if b = 0xF0 then execDBrkPrefix s
    else if b = 0xE1 then execDPauseLead s
    else execDMake b s
  else if s.dstate = dWaitExtended then
    if b = 0xF0 then execDExtBrkPrefix s
    else if b = 0xE0 then execDPrefixErrExt s
    else execDExtMake b s
  else if s.dstate = dWaitBreak then
    if b = 0xE0 ∨ b = 0xF0 then execDPrefixErrBrk false (b == 0xF0) s else execDBreak b s
  else if s.dstate = dWaitExtendedBreak then
    if b = 0xE0 ∨ b = 0xF0 then execDPrefixErrBrk true (b == 0xF0) s else execDExtBreak b s
  else if s.dstate = dWaitFirst77 then
    if b = 0x14 then execDPauseFiller14 false s
    else if b = 0xE1 then execDPauseFillerE1 false s
    else if b = 0xF0 then execDPauseFillerF0 false s
    else if b = 0x77 then execDPause77A s
    else execDPauseErr false b s
  else if s.dstate = dWaitSecond77 then
    if b = 0x14 then execDPauseFiller14 true s
    else if b = 0xE1 then execDPauseFillerE1 true s
    else if b = 0xF0 then execDPauseFillerF0 true s
    else if b = 0x77 then execDPause77B s
    else execDPauseErr true b s
  else execReservedDstate (s.dstate.getLsbD 0) b s

end Sys2Proof.Machine
end

