-- ==== Sys2Proof/Machine/HostPort.lean ====
section
/-! DEFINITION. The host operations of the key-state manager (spec/43_keystate.md R113 to R125). -/

namespace Sys2Proof.Machine

/-- `AVAIL` (R116); the operands are ignored. -/
def execAvail (_a0 _a1 : Byte) (s : State) : Result :=
  hostStep (fun s =>
    if 0 < s.kfCount then emitResp (.count s.kfCount) s
    else if s.heartbeatDue then emitResp (.count 1) s
    else emitResp (.count 0) s) s

/-- The end of `READ_REPORT` where no byte is to be sent (R117): the heartbeat restarts and the report is answered. -/
def answerReport (rpt : Report) (s : State) : State := emitResp (.report rpt) { s with hbCount := 0 }

/-- `READ_REPORT` with nothing pending (R117): the current bitmap's report. -/
def readIdle (s : State) : State := answerReport (formatReport s.params s.bm) s

/-- `READ_REPORT` of a Pressed event with transformed keycode `k` (R117): the bit is set, the report is built, and Pause
is released again after it. `s` is the state after the pop. -/
def readPressed (k : Byte) (s : State) : State :=
  let bm := bmWrite s.bm k true
  answerReport (formatReport s.params bm)
    { s with bm := if k = s.params.kcPause then bmWrite bm k false else bm }

/-- `READ_REPORT` of a Released event with transformed keycode `k` (R117): the bit is cleared; a lock key toggles its
LED and starts the 0xED sequence, with the report answered when the sequence ends. `s` is the state after the pop. -/
def readReleased (k : Byte) (s : State) : State :=
  let bm := bmWrite s.bm k false
  let rpt := formatReport s.params bm
  match lockLed s.params k with
  | none => answerReport rpt { s with bm := bm }
  | some i =>
    let new := toggleLed s.leds i
    startSeq cmdSetLeds (some (ledByte new)) true (some rpt) { s with bm := bm, leds := new, hbCount := 0 }

/-- The effect of an enabled `READ_REPORT` (R117): at most one event is consumed, and the hook is applied first. -/
def readReportEffect (s : State) : State :=
  if 0 < s.kfCount then
    let e := s.kf.front
    let k := transformKey s.params (eventKey e)
    if eventReleased e then readReleased k (popKf s) else readPressed k (popKf s)
  else readIdle s

/-- `READ_REPORT` (R117); the operands are ignored. -/
def execReadReport (_a0 _a1 : Byte) (s : State) : Result := hostStep readReportEffect s

/-- `WRITE` (R118). -/
def execWrite (a0 _a1 : Byte) (s : State) : Result := hostStep (startSeq a0 none false none) s

/-- `WRITE_WAIT` (R119). -/
def execWriteWait (a0 _a1 : Byte) (s : State) : Result := hostStep (startSeq a0 none true none) s

/-- `RESET_KBD` (R120); BF, KF, `dstate` and `le_state` are left alone. -/
def execResetKbd (_a0 _a1 : Byte) (s : State) : Result :=
  hostStep (fun s => startSeq cmdReset none true none { s with bm := 0, leds := 0 }) s

/-- `SET_TYPEMATIC` (R121). -/
def execSetTypematic (a0 _a1 : Byte) (s : State) : Result :=
  hostStep (startSeq cmdTypematic (some a0) true none) s

/-- `SET_LEDS` (R122): the byte sent is the merged LED state. -/
def execSetLeds (a0 a1 : Byte) (s : State) : Result :=
  hostStep (fun s =>
    let new := mergeLeds s.leds a0 a1
    startSeq cmdSetLeds (some (ledByte new)) true none { s with leds := new }) s

/-- reserved op 111 (R123): `Done`, no register changes. -/
def execReservedOp111 (_a0 _a1 : Byte) (s : State) : Result := hostStep (emitResp .done) s

end Sys2Proof.Machine
end

