-- ==== Sys2Proof/Machine/LineEngine.lean ====
section
/-! DEFINITION. The line engine: the meanings of the edge rows (spec/40_line_engine.md R71 to R80). -/

namespace Sys2Proof.Machine

/-- The state after data bit n: `WaitData`(n+1), or `WaitParity` after n = 7 (R56, R74). -/
def nextRxData (n : BitVec 3) : BitVec 5 := if n = 7 then leWaitParity else leWaitData (n + 1)

/-- The state after sent data bit n: `WaitSendData`(n+1), or `WaitSendParity` after n = 7 (R56, R77). -/
def nextTxData (n : BitVec 3) : BitVec 5 := if n = 7 then leWaitSendParity else leWaitSendData (n + 1)

/-- `RX_START` (R73). -/
def execRxStart (d : Bool) (s : State) : Result :=
  edgeStep (fun s =>
    if d then raiseErr .badStart s
    else { s with parity := true, leState := leWaitData 0 }) s

/-- `RX_DATA` (R74). -/
def execRxData (n : BitVec 3) (d : Bool) (s : State) : Result :=
  edgeStep (fun s =>
    { s with
      current := shiftIn d s.current
      parity := Bool.xor s.parity d
      leState := nextRxData n }) s

/-- `RX_PARITY` (R75). -/
def execRxParity (d : Bool) (s : State) : Result :=
  edgeStep (fun s =>
    if d = s.parity then { s with leState := leWaitStop }
    else raiseErr .badParity { s with leState := leWaitStart }) s

/-- `RX_STOP` (R76): the stop bit is checked before the room in BF. -/
def execRxStop (d : Bool) (s : State) : Result :=
  edgeStep (fun s =>
    if d then { pushBf s.current s with leState := leWaitStart }
    else raiseErr .badStop { s with leState := leWaitStart }) s

/-- `TX_DATA` (R77); the sampled bit is ignored. -/
def execTxData (n : BitVec 3) (_d : Bool) (s : State) : Result :=
  edgeStep (fun s =>
    let bit := s.current.getLsbD 0
    { s with
      dataDriveLow := !bit
      parity := Bool.xor s.parity bit
      current := shiftIn false s.current
      leState := nextTxData n }) s

/-- `TX_PARITY` (R78); the sampled bit is ignored. -/
def execTxParity (_d : Bool) (s : State) : Result :=
  edgeStep (fun s => { s with dataDriveLow := !s.parity, leState := leWaitSendStop }) s

/-- `TX_STOP` (R79); the sampled bit is ignored. -/
def execTxStop (_d : Bool) (s : State) : Result :=
  edgeStep (fun s => { s with dataDriveLow := false, leState := leWaitSendAck }) s

/-- `TX_ACK` (R80). -/
def execTxAck (d : Bool) (s : State) : Result :=
  edgeStep (fun s =>
    if d then raiseErr .invalidAck { s with leState := leWaitStart }
    else { s with leState := leWaitStart }) s

/-- reserved `le_state` 00011 (R56): refused. -/
def execReservedLe00011 (_d : Bool) (_s : State) : Result := .refused .reservedLeState

/-- reserved `le_state` 00111 (R56): refused. -/
def execReservedLe00111 (_d : Bool) (_s : State) : Result := .refused .reservedLeState

/-- reserved `le_state` 10nnn (R56): refused. -/
def execReservedLe10 (_n : BitVec 3) (_d : Bool) (_s : State) : Result := .refused .reservedLeState

/-- `EDGE_DETACHED` (R72): no register, no counter, no history changes. -/
def execEdgeDetached (_d : Bool) (s : State) : Result := .next s

end Sys2Proof.Machine
end

