-- ==== Sys2Proof/Machine/Sequencer.lean ====
section
/-! DEFINITION. The FG sequencer, the heartbeat timer and the command bytes the core transmits (spec/43_keystate.md R126
to R130, spec/30_encoding.md R68). -/

namespace Sys2Proof.Machine

/-- The effect of an enabled `FG_RTS` that begins sending byte `b` (R127): `TX_RTS(b)`, the second byte moves up, the
queue is one shorter, the phase is `RTS`. -/
def beginSend (b : Byte) (s : State) : State :=
  { txRts b s with
    txq0 := if s.txqLen = 2 then s.txq1 else s.txq0
    txqLen := s.txqLen - 1
    fgPhase := fgInRts }

/-- `FG_RTS` (R127). -/
def execFgRts (s : State) : Result := fgStep s.rtsEnabled (beginSend s.txq0) s

/-- `fg_finish()` where no byte is left (R128, R129). -/
def finishIfLast (s : State) : State := if s.txqLen = 0 then fgFinish s else s

/-- `FG_PRIME` (R128). -/
def execFgPrime (s : State) : Result :=
  fgStep s.primeEnabled (fun s =>
    if s.fgWait then { txPrime s with fgPhase := fgInWait }
    else finishIfLast { txPrime s with fgPhase := fgIdle }) s

/-- `FG_DONE` (R129). -/
def execFgDone (s : State) : Result :=
  fgStep s.doneEnabled (fun s => finishIfLast { s with fgPhase := fgIdle }) s

/-- `TICK` (R126): `hb_count` saturates at 2^HB_W - 1. -/
def execTick (s : State) : Result := .next { s with hbCount := min (s.hbCount + 1) (2 ^ s.params.hbW - 1) }

/-- `KBD_CMD_RESET` (R68): the core transmits 0xFF, which is the `FG_RTS` that takes this byte from the queue (R127; log
entry 8). -/
def execKbdCmdReset (s : State) : Result := fgStep s.rtsEnabled (beginSend cmdReset) s

/-- `KBD_CMD_TYPEMATIC` (R68): the core transmits 0xF3; its parameter byte moves up and follows (log entry 8). -/
def execKbdCmdTypematic (s : State) : Result := fgStep s.rtsEnabled (beginSend cmdTypematic) s

/-- `KBD_CMD_SET_LEDS` (R68): the core transmits 0xED; its mask byte moves up and follows (log entry 8). -/
def execKbdCmdSetLeds (s : State) : Result := fgStep s.rtsEnabled (beginSend cmdSetLeds) s

end Sys2Proof.Machine
end

