-- ==== Sys2Proof/Machine/Dispatch.lean ====
section
/-! DEFINITION. One arm per constructor of Instr: the meaning it calls. -/

namespace Sys2Proof.Machine

def exec (i : Instr) (s : State) : Host.Outcome State Fault Refusal :=
  match i with
  | .rxStart d => Sys2Proof.Machine.execRxStart d s
  | .rxData n d => Sys2Proof.Machine.execRxData n d s
  | .rxParity d => Sys2Proof.Machine.execRxParity d s
  | .rxStop d => Sys2Proof.Machine.execRxStop d s
  | .txData n d => Sys2Proof.Machine.execTxData n d s
  | .txParity d => Sys2Proof.Machine.execTxParity d s
  | .txStop d => Sys2Proof.Machine.execTxStop d s
  | .txAck d => Sys2Proof.Machine.execTxAck d s
  | .reservedLe00011 d => Sys2Proof.Machine.execReservedLe00011 d s
  | .reservedLe00111 d => Sys2Proof.Machine.execReservedLe00111 d s
  | .reservedLe10 n d => Sys2Proof.Machine.execReservedLe10 n d s
  | .edgeDetached d => Sys2Proof.Machine.execEdgeDetached d s
  | .dExtPrefix => Sys2Proof.Machine.execDExtPrefix s
  | .dBrkPrefix => Sys2Proof.Machine.execDBrkPrefix s
  | .dPauseLead => Sys2Proof.Machine.execDPauseLead s
  | .dMake b => Sys2Proof.Machine.execDMake b s
  | .dExtBrkPrefix => Sys2Proof.Machine.execDExtBrkPrefix s
  | .dPrefixErrExt => Sys2Proof.Machine.execDPrefixErrExt s
  | .dExtMake b => Sys2Proof.Machine.execDExtMake b s
  | .dPrefixErrBrk ext p => Sys2Proof.Machine.execDPrefixErrBrk ext p s
  | .dBreak b => Sys2Proof.Machine.execDBreak b s
  | .dExtBreak b => Sys2Proof.Machine.execDExtBreak b s
  | .dPauseFiller14 second => Sys2Proof.Machine.execDPauseFiller14 second s
  | .dPauseFillerE1 second => Sys2Proof.Machine.execDPauseFillerE1 second s
  | .dPauseFillerF0 second => Sys2Proof.Machine.execDPauseFillerF0 second s
  | .dPause77A => Sys2Proof.Machine.execDPause77A s
  | .dPause77B => Sys2Proof.Machine.execDPause77B s
  | .dPauseErr second b => Sys2Proof.Machine.execDPauseErr second b s
  | .reservedDstate x b => Sys2Proof.Machine.execReservedDstate x b s
  | .avail a0 a1 => Sys2Proof.Machine.execAvail a0 a1 s
  | .readReport a0 a1 => Sys2Proof.Machine.execReadReport a0 a1 s
  | .write a0 a1 => Sys2Proof.Machine.execWrite a0 a1 s
  | .writeWait a0 a1 => Sys2Proof.Machine.execWriteWait a0 a1 s
  | .resetKbd a0 a1 => Sys2Proof.Machine.execResetKbd a0 a1 s
  | .setTypematic a0 a1 => Sys2Proof.Machine.execSetTypematic a0 a1 s
  | .setLeds a0 a1 => Sys2Proof.Machine.execSetLeds a0 a1 s
  | .reservedOp111 a0 a1 => Sys2Proof.Machine.execReservedOp111 a0 a1 s
  | .decStep => Sys2Proof.Machine.execDecStep s
  | .fgRts => Sys2Proof.Machine.execFgRts s
  | .fgPrime => Sys2Proof.Machine.execFgPrime s
  | .fgDone => Sys2Proof.Machine.execFgDone s
  | .tick => Sys2Proof.Machine.execTick s
  | .kbdCmdReset => Sys2Proof.Machine.execKbdCmdReset s
  | .kbdCmdTypematic => Sys2Proof.Machine.execKbdCmdTypematic s
  | .kbdCmdSetLeds => Sys2Proof.Machine.execKbdCmdSetLeds s

end Sys2Proof.Machine
end

