-- ==== Sys2Proof/Machine/Fetch.lean ====
section
/-! DEFINITION. Which instruction the next step runs: the schedule's choice of an agent (spec/00_scope.md R10, R11) and
the decode key that the state gives that agent (spec/30_encoding.md R57, R59, R61). The core has no instruction fetch
from a memory (R52). -/

namespace Sys2Proof.Machine

/-- The step the schedule offers next and the state with that choice taken (log entry 1): the first placed event, or,
where none is placed, the free schedule's choice. -/
def State.nextEvent (s : State) : Event × State :=
  match s.events with
  | e :: rest => (e, { s with events := rest })
  | [] => (Config.freeEvent s.eventPos, { s with eventPos := s.eventPos + 1 })

/-- The instruction an offered step is decoded to. An `FG_RTS` that takes a command byte from the queue is that byte's
row (R68, log entry 8). -/
def fetch (e : Event) (s : State) : Instr :=
  match e with
  | .edge d => if s.attached then decodeEdge (edgeKey s.leState d) else .edgeDetached d
  | .decStep => if 0 < s.bfCount then decodeDec (decKey s.dstate s.bf.front) else .decStep
  | .hostOp op a0 a1 => decodeHost (hostKey op a0 a1)
  | .fgRts => if s.rtsEnabled then (decodeKbd s.txq0).getD .fgRts else .fgRts
  | .fgPrime => .fgPrime
  | .fgDone => .fgDone
  | .tick => .tick

/-- A ring whose oldest entry is `v`: in place of the oldest entry it has, or as its only one. -/
def Ring.withFront {w : Nat} (n : Nat) (v : BitVec w) (r : Ring w) : Ring w :=
  { r with slots := r.slots.set r.tail v, head := if r.count n = 0 then adv n r.tail else r.head }

/-- The state whose next step is decoded from the key `k` (log entry 5): the registers the key is read from, and the
agent that reads them offered the next step. -/
def placeKey (k : Key) (s : State) : State :=
  match k with
  | .edge w =>
    { s with attached := true, leState := w.extractLsb' 1 5, events := .edge (w.getLsbD 0) :: s.events }
  | .edgeDetached d => { s with attached := false, events := .edge d :: s.events }
  | .decByte w =>
    { s with
      dstate := w.extractLsb' 8 3
      bf := s.bf.withFront s.params.nB (w.extractLsb' 0 8)
      events := .decStep :: s.events }
  | .hostReq w =>
    { s with
      fgPhase := fgIdle
      txqLen := 0
      events := .hostOp (w.extractLsb' 16 3) (w.extractLsb' 8 8) (w.extractLsb' 0 8) :: s.events }
  | .kbdCmd b =>
    { s with
      fgPhase := fgIdle
      txq0 := b
      txqLen := if s.txqLen = 0 then 1 else s.txqLen
      events := .fgRts :: s.events }
  | .decStep => { s with events := .decStep :: s.events }
  | .fgRts => { s with events := .fgRts :: s.events }
  | .fgPrime => { s with events := .fgPrime :: s.events }
  | .fgDone => { s with events := .fgDone :: s.events }
  | .tick => { s with events := .tick :: s.events }

end Sys2Proof.Machine
end

