-- ==== Sys2Proof/Machine/Step.lean ====
section
/-! DEFINITION. One step of the core: the schedule offers a step (spec/00_scope.md R10), the state gives it its decode
key, and the instruction decoded is executed, atomically. -/

namespace Sys2Proof.Machine

/-- One step. -/
def step (s : State) : Host.Outcome State Fault Refusal :=
  exec (fetch s.nextEvent.1 s.nextEvent.2) s.nextEvent.2

/-- `s` with the instruction that a word of spec/opcode_table.json spells placed as its next step; a word that spells
no key leaves `s` as it is. -/
def State.withFetchWord (s : State) (nbits w : Nat) : State :=
  match keyOfWord nbits w with
  | some k => placeKey k s
  | none => s

end Sys2Proof.Machine
end

