-- ==== Sys2Proof/Safety.lean ====
section
/-! DEFINITION. The terms claims use: the legal values of the registers, the invariant of every run, and the runs claims
speak of. -/

namespace Sys2Proof.Machine

/-- The constraints R6 puts on the parameters. -/
structure Params.Valid (p : Params) : Prop where
  nB_ge : 2 ≤ p.nB
  nK_ge : 2 ≤ p.nK
  hbW_ge : 1 ≤ p.hbW
  pulseW_ge : 1 ≤ p.pulseW
  interval_lt : p.reportInterval < 2 ^ p.hbW
  scroll_ne_num : p.kcScroll ≠ p.kcNum
  scroll_ne_caps : p.kcScroll ≠ p.kcCaps
  num_ne_caps : p.kcNum ≠ p.kcCaps

/-- A ring of `n` slots whose pointers hold values 0..n-1 (R86). -/
structure Ring.Legal {w : Nat} (n : Nat) (r : Ring w) : Prop where
  slots_length : r.slots.length = n
  head_lt : r.head < n
  tail_lt : r.tail < n

/-- The 22 legal values of `le_state` (R20, R56). -/
def legalLe (le : BitVec 5) : Bool :=
  !(le == 0b00011#5 || le == 0b00111#5 || le.extractLsb' 3 2 == 0b10#2)

/-- The six legal values of `dstate` (R58). -/
def legalDstate (ds : BitVec 3) : Bool := ds.extractLsb' 1 2 != 0b11#2

/-- The invariant of every run: legal register values (R7, R20, R26, R28, R32, R33), the request-to-send phase (R23,
R24, R25), the data line released whenever nothing is being sent (R25), and no latched report without a busy port
(R130). -/
structure State.Inv (s : State) : Prop where
  params_valid : Params.Valid s.params
  le_legal : legalLe s.leState = true
  dstate_legal : legalDstate s.dstate = true
  phase_legal : s.fgPhase ≠ fgReserved
  txqLen_le : s.txqLen ≤ 2
  bf_legal : Ring.Legal s.params.nB s.bf
  kf_legal : Ring.Legal s.params.nK s.kf
  pulse_lt : s.pulseCount < 2 ^ s.params.pulseW
  hb_lt : s.hbCount < 2 ^ s.params.hbW
  rts_iff : s.rts = true ↔ s.fgPhase = fgInRts
  attached_eq : s.attached = !s.rts
  clk_eq : s.clkDriveLow = s.rts
  data_in_rts : s.rts = true → s.dataDriveLow = true
  data_released : s.rts = false → isSendState s.leState = false ∨ s.leState = leWaitSendAck → s.dataDriveLow = false
  pend_busy : s.pendValid = true → s.fgBusy = true

/-- A latched report is the report of the bitmap as it stands (R130). -/
def State.PendCurrent (s : State) : Prop :=
  s.pendValid = true → s.pendRpt = formatReport s.params s.bm

/-- The constraints of R134 on a table pair and the keycodes: mapped entries in the keycode domain, the two entries the
source states, the distinct constants, and the lock keys' entries. -/
structure Params.SourceTables (p : Params) : Prop where
  normal_domain : ∀ b k, lookup p p.normalTable b = some k → k ≤ 0xA4 ∨ isModifier k = true
  ext_domain : ∀ b k, lookup p p.extTable b = some k → k ≤ 0xA4 ∨ isModifier k = true
  normal_a : lookup p p.normalTable 0x1C = some 0x04
  ext_home : lookup p p.extTable 0x6C = some 0x4A
  distinct : [p.kcInvalid, p.kcPause, p.kcScroll, p.kcNum, p.kcCaps].Nodup
  scroll_entry : lookup p p.normalTable 0x7E = some p.kcScroll
  num_entry : lookup p p.normalTable 0x77 = some p.kcNum
  caps_entry : lookup p p.normalTable 0x58 = some p.kcCaps

/-- The eleven edges of a valid receive frame (R53, R70). -/
def frameEdges (b : Byte) : List Event :=
  [.edge false, .edge (b.getLsbD 0), .edge (b.getLsbD 1), .edge (b.getLsbD 2), .edge (b.getLsbD 3),
    .edge (b.getLsbD 4), .edge (b.getLsbD 5), .edge (b.getLsbD 6), .edge (b.getLsbD 7), .edge (oddParity b), .edge true]

/-- The entries a ring holds, oldest first (R86): those from the tail up to but not including the head. -/
def Ring.contents {w : Nat} (n : Nat) (r : Ring w) : List (BitVec w) :=
  (List.range (r.count n)).map (fun i => r.slots.getD ((r.tail + i) % n) (Config.absentSlot w ((r.tail + i) % n)))

/-- The filler bytes of the Pause sequence (R60, R105). -/
def isFiller (b : Byte) : Bool := b == 0x14 || b == 0xE1 || b == 0xF0

/-- The host port is free and `fg_phase` is idle: `fg_busy = 0` (R19). -/
def State.PortFree (s : State) : Prop := s.fgPhase = fgIdle ∧ s.txqLen = 0

/-- Keycode slot j of a report value (R66). -/
def slotOf (rpt : Report) (j : Nat) : Byte := rpt.extractLsb' (8 * j + 8) 8

/-- The step the schedule offers next. -/
def State.offered (s : State) : Event := s.nextEvent.1

/-- A run of `k` steps of the core, stopping at the first refusal: `Host.Core.run` of `Sys2Proof.core`
(`Machine.run_eq_core` in Laws/Ops.lean). -/
def run : Nat → State → Result
  | 0, s => .next s
  | k + 1, s =>
    match step s with
    | .next t => run k t
    | .fault r => .fault r
    | .refused r => .refused r

end Sys2Proof.Machine
end

