-- ==== Sys2Proof/Certificates/Slice0/Obligations.lean ====
section
/-! DEFINITION. The statements for the provers, from the numbered rules of spec/. Each docstring names the rule. -/

open Sys2Proof Sys2Proof.Machine

/-! ### Encodings -/

/-- R57, R59, R61, R68: words written out from the spec's tables (the keys are those of spec/95_test_vectors.md sections
2.2, 2.3, 2.5 and 2.6). That a word's width tells its format, and a byte above 0x3F is a command byte, is the model's
choice (log entry 5). -/
def Obligations.SpecWordsDecode : Prop :=
  decodeTableWord 8 0x10 = some (.rxData 0 false) ∧
  decodeTableWord 8 0x3F = some (.txData 7 true) ∧
  decodeTableWord 8 0x05 = some (.rxStop true) ∧
  decodeTableWord 8 0x0C = some (.txAck false) ∧
  decodeTableWord 16 0x0F0 = some .dBrkPrefix ∧
  decodeTableWord 16 0x2E0 = some (.dPrefixErrBrk false false) ∧
  decodeTableWord 16 0x36C = some (.dExtBreak 0x6C) ∧
  decodeTableWord 16 0x5F0 = some (.dPauseFillerF0 true) ∧
  decodeTableWord 16 0x577 = some .dPause77B ∧
  decodeTableWord 24 0x2ED00 = some (.write 0xED 0x00) ∧
  decodeTableWord 24 0x60404 = some (.setLeds 0x04 0x04) ∧
  decodeTableWord 8 0xF3 = some .kbdCmdTypematic

/-- No bit of an encoding is dropped: decoding the key of a well-formed instruction gives the instruction back. -/
def Obligations.DecodeAfterEncode : Prop :=
  ∀ i : Instr, i.wellFormed = true → decode (encode i) = .ok i

/-- R57, R59, R61: a key that decodes is the key of the instruction it decodes to, which is well formed; and every key
decodes but a command byte that is none of the three of R68. -/
def Obligations.EncodeAfterDecode : Prop :=
  ∀ k : Key,
    (∀ i, decode k = .ok i → i.wellFormed = true ∧ encode i = k) ∧
    ((∃ e, decode k = .error e) ↔ ∃ b, k = .kbdCmd b ∧ b ≠ 0xFF ∧ b ≠ 0xF3 ∧ b ≠ 0xED)

/-! ### The step -/

/-- R10, R11, R57, R59, R61: a step runs the instruction that the offered step and the state decode to, on the state
with the offer taken, whether the offer is a placed event or the free schedule's choice. How the state carries the
offers (`events`, `freeEvent`) is the model's choice (log entry 1), and so is that an `FG_RTS` which takes a command byte
runs that byte's row (log entry 8). -/
def Obligations.StepRunsDecodedInstruction : Prop :=
  ∀ s : State,
    (∀ e rest, s.events = e :: rest → s.nextEvent = (e, { s with events := rest })) ∧
    (s.events = [] → s.nextEvent = (Config.freeEvent s.eventPos, { s with eventPos := s.eventPos + 1 })) ∧
    (∀ d i, s.offered = .edge d → s.attached = true →
      decode (.edge (s.leState ++ BitVec.ofBool d)) = .ok i → step s = exec i s.nextEvent.2) ∧
    (∀ d, s.offered = .edge d → s.attached = false → step s = exec (.edgeDetached d) s.nextEvent.2) ∧
    (∀ i, s.offered = .decStep → 0 < s.bfCount →
      decode (.decByte (s.dstate ++ s.bf.front)) = .ok i → step s = exec i s.nextEvent.2) ∧
    (s.offered = .decStep → s.bfCount = 0 → step s = exec .decStep s.nextEvent.2) ∧
    (∀ op a0 a1 i, s.offered = .hostOp op a0 a1 →
      decode (.hostReq (op ++ a0 ++ a1)) = .ok i → step s = exec i s.nextEvent.2) ∧
    (∀ i, s.offered = .fgRts → s.fgPhase = fgIdle → s.txqLen ≠ 0 → decode (.kbdCmd s.txq0) = .ok i →
      step s = exec i s.nextEvent.2) ∧
    (s.offered = .fgRts → ¬ (s.fgPhase = fgIdle ∧ s.txqLen ≠ 0 ∧ (s.txq0 = 0xFF ∨ s.txq0 = 0xF3 ∨ s.txq0 = 0xED)) →
      step s = exec .fgRts s.nextEvent.2) ∧
    (s.offered = .fgPrime → step s = exec .fgPrime s.nextEvent.2) ∧
    (s.offered = .fgDone → step s = exec .fgDone s.nextEvent.2) ∧
    (s.offered = .tick → step s = exec .tick s.nextEvent.2)

/-- R93: `DEC_STEP` performs the one operation its key selects; where BF is empty it is not enabled and leaves the state
as it is (the model's choice, log entry 7). -/
def Obligations.DecStepRunsItsRow : Prop :=
  ∀ s : State,
    (∀ i, 0 < s.bfCount → decode (.decByte (s.dstate ++ s.bf.front)) = .ok i → exec .decStep s = exec i s) ∧
    (s.bfCount = 0 → exec .decStep s = .next s)

/-- R13, R142: from every state that meets the invariant every step has a next state; none faults and none is refused. -/
def Obligations.EveryLegalStateSteps : Prop :=
  ∀ s : State, s.Inv → ∃ t, step s = .next t

/-! ### Reset and the invariants -/

/-- R155: what reset leaves in the registers to which the rule gives a value. -/
def Obligations.ResetValues : Prop :=
  let s := State.reset
  s.leState = 0b00000#5 ∧ s.rts = false ∧ s.attached = true ∧ s.clkDriveLow = false ∧ s.dataDriveLow = false ∧
  s.pulseCount = 0 ∧ s.bf.head = 0 ∧ s.bf.tail = 0 ∧ s.dstate = 0b000#3 ∧ s.kf.head = 0 ∧ s.kf.tail = 0 ∧
  (∀ k : Byte, bmRead s.bm k = false) ∧ s.leds = 0b000#3 ∧ s.hbCount = 0 ∧ s.fgPhase = 0b00#2 ∧ s.txqLen = 0 ∧
  s.fgWait = false ∧ s.pendValid = false ∧ s.errlog = [] ∧ s.resp = [] ∧ s.fgBusy = false

/-- R6, R155: the reset state meets the two invariants. The parameters the reset state carries are the model's choice (log
entry 3). -/
def Obligations.ResetMeetsInvariants : Prop := State.reset.Inv ∧ State.reset.PendCurrent

/-- R7, R20, R23 to R26, R28, R32, R33, R36: every step keeps the invariant. -/
def Obligations.StepKeepsInvariant : Prop :=
  ∀ s t : State, s.Inv → step s = .next t → t.Inv

/-- R130: the report a `READ_REPORT` latched stays the report of the bitmap until it is delivered. -/
def Obligations.PendingReportStaysCurrent : Prop :=
  ∀ s t : State, s.Inv → s.PendCurrent → step s = .next t → t.PendCurrent

/-- R34: every step only appends to the two histories. -/
def Obligations.HistoriesOnlyGrow : Prop :=
  (State.reset.errlog = [] ∧ State.reset.resp = []) ∧
  ∀ s t : State, step s = .next t → (∃ es, t.errlog = s.errlog ++ es) ∧ ∃ rs, t.resp = s.resp ++ rs

/-- R67, R140, R141: a step raises at most one error. The step that raises one of the codes 0x1 to 0x5 leaves LE in
`WaitStart` and counts its pulse, the step that raises one of 0x6 to 0x8 leaves DEC in `D.WaitStart` and pops its byte;
neither writes anything else but the history and the schedule's two fields. -/
def Obligations.ErrorLeavesOwnerIdle : Prop :=
  ∀ s t : State, step s = .next t →
    t.errlog = s.errlog ∨
    ∃ e : BitVec 4, t.errlog = s.errlog ++ [e] ∧
      ((1 ≤ e.toNat ∧ e.toNat ≤ 5 ∧
        t = { s with
          leState := leWaitStart
          pulseCount := (s.pulseCount + 1) % 2 ^ s.params.pulseW
          errlog := s.errlog ++ [e]
          events := t.events
          eventPos := t.eventPos }) ∨
      (6 ≤ e.toNat ∧ e.toNat ≤ 8 ∧
        t = { s with
          dstate := dWaitStart
          bf := { s.bf with tail := (s.bf.tail + 1) % s.params.nB }
          errlog := s.errlog ++ [e]
          events := t.events
          eventPos := t.eventPos }))

/-- R158: no step changes a parameter. -/
def Obligations.ParametersNeverChange : Prop :=
  ∀ s t : State, step s = .next t → t.params = s.params

/-- R112: no step other than `DEC_STEP` changes `dstate`, and `DEC_STEP` leaves it as it is until a byte has arrived. -/
def Obligations.OnlyDecStepWritesDstate : Prop :=
  ∀ s t : State, step s = .next t → s.offered ≠ .decStep ∨ s.bfCount = 0 → t.dstate = s.dstate

/-- R50, R92: each ring pointer has one writer: `bf_head` and BF's slots an edge, `bf_tail` `DEC_STEP`, `kf_head` and KF's
slots `DEC_STEP`, `kf_tail` `READ_REPORT`. -/
def Obligations.RingPointersHaveOneWriter : Prop :=
  ∀ s t : State, step s = .next t →
    ((∀ d, s.offered ≠ .edge d) → t.bf.head = s.bf.head ∧ t.bf.slots = s.bf.slots) ∧
    (s.offered ≠ .decStep → t.bf.tail = s.bf.tail ∧ t.kf.head = s.kf.head ∧ t.kf.slots = s.kf.slots) ∧
    ((∀ a0 a1, s.offered ≠ .hostOp 0b001#3 a0 a1) → t.kf.tail = s.kf.tail)

/-- R30, R31, R32: the writers of the bitmap, of `leds` and of `hb_count`. -/
def Obligations.KeyStateWriters : Prop :=
  ∀ s t : State, step s = .next t →
    ((∀ a0 a1, s.offered ≠ .hostOp 0b001#3 a0 a1 ∧ s.offered ≠ .hostOp 0b100#3 a0 a1) → t.bm = s.bm) ∧
    ((∀ a0 a1, s.offered ≠ .hostOp 0b001#3 a0 a1 ∧ s.offered ≠ .hostOp 0b100#3 a0 a1 ∧
      s.offered ≠ .hostOp 0b110#3 a0 a1) → t.leds = s.leds) ∧
    (s.offered ≠ .tick → (∀ a0 a1, s.offered ≠ .hostOp 0b001#3 a0 a1) → t.hbCount = s.hbCount)

/-! ### The line engine -/

/-- R73: `RX_START`. -/
def Obligations.RxStartResult : Prop :=
  (∀ d, decode (.edge (0b00000#5 ++ BitVec.ofBool d)) = .ok (.rxStart d)) ∧
  ∀ s : State, s.attached = true →
    exec (.rxStart false) s = .next { s with
      pulseCount := (s.pulseCount + 1) % 2 ^ s.params.pulseW
      parity := true
      leState := leWaitData 0 } ∧
    exec (.rxStart true) s = .next { s with
      pulseCount := (s.pulseCount + 1) % 2 ^ s.params.pulseW
      errlog := s.errlog ++ [0x1#4] }

/-- R74: `RX_DATA`, one data bit: the right shift with the bit into bit 7, the parity toggle, the successor state. -/
def Obligations.RxDataResult : Prop :=
  (∀ n d, decode (.edge ((0b01#2 ++ n) ++ BitVec.ofBool d)) = .ok (.rxData n d)) ∧
  ∀ (s : State) (n : BitVec 3) (d : Bool), s.attached = true →
    exec (.rxData n d) s = .next { s with
      pulseCount := (s.pulseCount + 1) % 2 ^ s.params.pulseW
      current := (s.current >>> 1) ||| (if d then 0x80 else 0x00)
      parity := if d then !s.parity else s.parity
      leState := if n.toNat < 7 then leWaitData (n + 1) else leWaitParity }

/-- R75: `RX_PARITY`. -/
def Obligations.RxParityResult : Prop :=
  (∀ d, decode (.edge (0b00001#5 ++ BitVec.ofBool d)) = .ok (.rxParity d)) ∧
  ∀ (s : State) (d : Bool), s.attached = true →
    (d = s.parity → exec (.rxParity d) s = .next { s with
      pulseCount := (s.pulseCount + 1) % 2 ^ s.params.pulseW
      leState := leWaitStop }) ∧
    (d ≠ s.parity → exec (.rxParity d) s = .next { s with
      pulseCount := (s.pulseCount + 1) % 2 ^ s.params.pulseW
      leState := leWaitStart
      errlog := s.errlog ++ [0x2#4] })

/-- R76: `RX_STOP`: the stop bit first, then the room in BF. -/
def Obligations.RxStopResult : Prop :=
  (∀ d, decode (.edge (0b00010#5 ++ BitVec.ofBool d)) = .ok (.rxStop d)) ∧
  ∀ s : State, s.attached = true →
    exec (.rxStop false) s = .next { s with
      pulseCount := (s.pulseCount + 1) % 2 ^ s.params.pulseW
      leState := leWaitStart
      errlog := s.errlog ++ [0x3#4] } ∧
    ((s.bf.head + 1) % s.params.nB = s.bf.tail → exec (.rxStop true) s = .next { s with
      pulseCount := (s.pulseCount + 1) % 2 ^ s.params.pulseW
      leState := leWaitStart
      errlog := s.errlog ++ [0x5#4] }) ∧
    ((s.bf.head + 1) % s.params.nB ≠ s.bf.tail → exec (.rxStop true) s = .next { s with
      pulseCount := (s.pulseCount + 1) % 2 ^ s.params.pulseW
      leState := leWaitStart
      bf := { s.bf with slots := s.bf.slots.set s.bf.head s.current, head := (s.bf.head + 1) % s.params.nB } })

/-- R77: `TX_DATA`: the line follows bit 0, the parity toggles for a 1, the shift, the successor; the sampled bit is
ignored. -/
def Obligations.TxDataResult : Prop :=
  (∀ n d, decode (.edge ((0b11#2 ++ n) ++ BitVec.ofBool d)) = .ok (.txData n d)) ∧
  ∀ (s : State) (n : BitVec 3) (d : Bool), s.attached = true →
    exec (.txData n d) s = .next { s with
      pulseCount := (s.pulseCount + 1) % 2 ^ s.params.pulseW
      dataDriveLow := !s.current.getLsbD 0
      parity := if s.current.getLsbD 0 then !s.parity else s.parity
      current := s.current >>> 1
      leState := if n.toNat < 7 then leWaitSendData (n + 1) else leWaitSendParity }

/-- R78, R79, R80: `TX_PARITY`, `TX_STOP` and `TX_ACK`. -/
def Obligations.TxTailResult : Prop :=
  (∀ d, decode (.edge (0b00100#5 ++ BitVec.ofBool d)) = .ok (.txParity d)) ∧
  (∀ d, decode (.edge (0b00101#5 ++ BitVec.ofBool d)) = .ok (.txStop d)) ∧
  (∀ d, decode (.edge (0b00110#5 ++ BitVec.ofBool d)) = .ok (.txAck d)) ∧
  ∀ (s : State) (d : Bool), s.attached = true →
    exec (.txParity d) s = .next { s with
      pulseCount := (s.pulseCount + 1) % 2 ^ s.params.pulseW
      dataDriveLow := !s.parity
      leState := leWaitSendStop } ∧
    exec (.txStop d) s = .next { s with
      pulseCount := (s.pulseCount + 1) % 2 ^ s.params.pulseW
      dataDriveLow := false
      leState := leWaitSendAck } ∧
    exec (.txAck d) s = .next { s with
      pulseCount := (s.pulseCount + 1) % 2 ^ s.params.pulseW
      leState := leWaitStart
      errlog := s.errlog ++ (if d then [0x4#4] else []) }

/-- R72: an edge while `attached = 0` changes no state: no register, no counter, no history. -/
def Obligations.DetachedEdgeChangesNothing : Prop :=
  (∀ s d, exec (.edgeDetached d) s = .next s) ∧
  (∀ (s : State) (d : Bool) (rest : List Event), s.attached = false → s.events = .edge d :: rest →
    step s = .next { s with events := rest }) ∧
  ∀ (s : State) (n : BitVec 3) (d : Bool), s.attached = false →
    ∀ i ∈ [Instr.rxStart d, .rxData n d, .rxParity d, .rxStop d, .txData n d, .txParity d, .txStop d, .txAck d],
      exec i s = .next s

/-- R56, R58, R62: the rows of a reserved state code are refused, and so is every reader of a reserved `fg_phase`. That
these readers are all FG steps, command rows and host operations is the model's reading of R62 (log entry 11). -/
def Obligations.ReservedCodesAreRefused : Prop :=
  ∀ (s : State) (n : BitVec 3) (d x : Bool) (b a0 a1 : Byte),
    exec (.reservedLe00011 d) s = .refused .reservedLeState ∧
    exec (.reservedLe00111 d) s = .refused .reservedLeState ∧
    exec (.reservedLe10 n d) s = .refused .reservedLeState ∧
    exec (.reservedDstate x b) s = .refused .reservedDstate ∧
    (0 < s.bfCount → s.dstate.extractLsb' 1 2 = 0b11#2 → exec .decStep s = .refused .reservedDstate) ∧
    (s.fgPhase = 0b11#2 →
      ∀ i ∈ [Instr.fgRts, .fgPrime, .fgDone, .kbdCmdReset, .kbdCmdTypematic, .kbdCmdSetLeds, .avail a0 a1,
        .readReport a0 a1, .write a0 a1, .writeWait a0 a1, .resetKbd a0 a1, .setTypematic a0 a1, .setLeds a0 a1,
        .reservedOp111 a0 a1], exec i s = .refused .reservedFgPhase)

/-- R71: an attached edge increments the pulse counter modulo 2^PULSE_W, writes no register of DEC, KF, KSM or FG, and
raises at most one error. -/
def Obligations.EdgeFrame : Prop :=
  ∀ (s t : State) (d : Bool), s.offered = .edge d → s.attached = true → step s = .next t →
    t.pulseCount = (s.pulseCount + 1) % 2 ^ s.params.pulseW ∧
    (t.errlog = s.errlog ∨ ∃ e, t.errlog = s.errlog ++ [e]) ∧
    t.params = s.params ∧ t.txbuf = s.txbuf ∧ t.rts = s.rts ∧ t.attached = s.attached ∧
    t.clkDriveLow = s.clkDriveLow ∧ t.bf.tail = s.bf.tail ∧ t.dstate = s.dstate ∧ t.kf = s.kf ∧ t.bm = s.bm ∧
    t.leds = s.leds ∧ t.hbCount = s.hbCount ∧ t.fgPhase = s.fgPhase ∧ t.txqLen = s.txqLen ∧ t.txq0 = s.txq0 ∧
    t.txq1 = s.txq1 ∧ t.fgWait = s.fgWait ∧ t.pendValid = s.pendValid ∧ t.pendRpt = s.pendRpt ∧ t.resp = s.resp

/-- R76, R85: the eleven edges of a valid frame of any byte, from `WaitStart`, attached, end in `WaitStart`, push exactly that
byte and raise no error when BF is not full, and raise one overflow error and leave BF alone when it is. -/
def Obligations.ValidFramePushesItsByte : Prop :=
  ∀ (s : State) (b : Byte) (rest : List Event),
    s.leState = leWaitStart → s.attached = true → s.events = frameEdges b ++ rest →
    run 11 s = .next { s with
      current := b
      parity := oddParity b
      pulseCount := (s.pulseCount + 11) % 2 ^ s.params.pulseW
      events := rest
      bf := if s.bf.full s.params.nB then s.bf else s.bf.put s.params.nB b
      errlog := if s.bf.full s.params.nB then s.errlog ++ [0x5#4] else s.errlog }

/-- R85, R91 and the property of the source's section 8: valid frames submitted in sequence, with nothing read in
between, fill BF up to its capacity in arrival order, and each further one is dropped with one overflow error. -/
def Obligations.FramesInSequenceFillByteRing : Prop :=
  ∀ (s : State) (bs : List Byte) (rest : List Event),
    2 ≤ s.params.nB → Ring.Legal s.params.nB s.bf → s.leState = leWaitStart → s.attached = true →
    s.events = bs.flatMap frameEdges ++ rest →
    ∃ t, run (11 * bs.length) s = .next t ∧ t.leState = leWaitStart ∧ t.attached = true ∧ t.events = rest ∧
      t.bf.contents s.params.nB = (s.bf.contents s.params.nB ++ bs).take (s.params.nB - 1) ∧
      t.errlog = s.errlog ++ List.replicate
        ((s.bf.contents s.params.nB).length + bs.length - (s.params.nB - 1)) 0x5#4

/-- R75, R83: a frame with the wrong parity bit is dropped at its parity edge, and its stop edge is then taken as a bad
start bit: two errors, BF unchanged, LE idle. -/
def Obligations.BadParityFrameIsDropped : Prop :=
  ∀ (s : State) (b : Byte) (rest : List Event),
    s.leState = leWaitStart → s.attached = true →
    s.events = (frameEdges b).take 9 ++ [.edge (!oddParity b), .edge true] ++ rest →
    ∃ t, run 11 s = .next t ∧ t.leState = leWaitStart ∧ t.bf = s.bf ∧ t.events = rest ∧
      t.errlog = s.errlog ++ [0x2#4, 0x1#4]

/-- R54, R77 to R80, R84: after a byte is primed, eleven edges with any sampled values drive its eight bits least
significant first, then its odd parity bit, then release the line, and end in `WaitStart`; the one error is
`ERR_INVALID_ACK`, exactly when the last sampled bit is 1, and BF is untouched. -/
def Obligations.SendDrivesByteThenParity : Prop :=
  ∀ (s : State) (b : Byte) (ds : List Bool) (ack : Bool) (rest : List Event),
    s.leState = leWaitSendData 0 → s.attached = true → s.current = b → s.parity = true → ds.length = 10 →
    s.events = ds.map Event.edge ++ [.edge ack] ++ rest →
    (∀ k < 8, ∃ t, run (k + 1) s = .next t ∧ t.dataDriveLow = !b.getLsbD k) ∧
    (∃ t, run 9 s = .next t ∧ t.dataDriveLow = !oddParity b) ∧
    (∃ t, run 10 s = .next t ∧ t.dataDriveLow = false ∧ t.leState = leWaitSendAck) ∧
    ∃ t, run 11 s = .next t ∧ t.leState = leWaitStart ∧ t.dataDriveLow = false ∧ t.bf = s.bf ∧ t.events = rest ∧
      t.errlog = s.errlog ++ (if ack then [0x4#4] else [])

/-! ### The rings -/

/-- R89: full and empty of a ring of any width (BF and KF among them), never both. -/
def Obligations.FullAndEmptyExclude : Prop :=
  ∀ (n w : Nat) (r : Ring w), 2 ≤ n →
    (r.full n = true ↔ (r.head + 1) % n = r.tail) ∧ (r.empty = true ↔ r.head = r.tail) ∧
    ¬ (r.full n = true ∧ r.empty = true)

/-- R49, R87, R88, R90: a ring is a queue: a push appends, a pop takes the oldest entry, the count is the number of
entries, full means N-1 of them; a push to a full ring changes nothing of it and raises its one error. Stated for BF and
for KF. -/
def Obligations.RingsAreQueues : Prop :=
  (∀ (n w : Nat) (r : Ring w) (v : BitVec w), 2 ≤ n → Ring.Legal n r →
    r.count n = (r.contents n).length ∧ (r.full n = true ↔ (r.contents n).length = n - 1) ∧
    (r.full n = false → (r.put n v).contents n = r.contents n ++ [v] ∧ Ring.Legal n (r.put n v)) ∧
    (0 < r.count n → r.contents n = r.front :: (r.drop n).contents n ∧ Ring.Legal n (r.drop n))) ∧
  ∀ (s : State) (v : Byte) (e : KeyEvent),
    (s.bf.full s.params.nB = true → pushBf v s = { s with errlog := s.errlog ++ [0x5#4] }) ∧
    (s.bf.full s.params.nB = false → pushBf v s = { s with bf := s.bf.put s.params.nB v }) ∧
    (s.kf.full s.params.nK = true → pushKf e s = { s with errlog := s.errlog ++ [0x8#4] }) ∧
    (s.kf.full s.params.nK = false → pushKf e s = { s with kf := s.kf.put s.params.nK e })

/-! ### The decoder -/

/-- R96, R97, R98, R100, R105, R106: the rows that only move the decoder's state. -/
def Obligations.PrefixAndPauseRowsResult : Prop :=
  ∀ (s : State) (second : Bool), 0 < s.bfCount →
    let bf := { s.bf with tail := (s.bf.tail + 1) % s.params.nB }
    exec .dExtPrefix s = .next { s with bf := bf, dstate := dWaitExtended } ∧
    exec .dBrkPrefix s = .next { s with bf := bf, dstate := dWaitBreak } ∧
    exec .dPauseLead s = .next { s with bf := bf, dstate := dWaitFirst77 } ∧
    exec .dExtBrkPrefix s = .next { s with bf := bf, dstate := dWaitExtendedBreak } ∧
    exec .dPause77A s = .next { s with bf := bf, dstate := dWaitSecond77 } ∧
    exec (.dPauseFiller14 second) s = .next { s with bf := bf } ∧
    exec (.dPauseFillerE1 second) s = .next { s with bf := bf } ∧
    exec (.dPauseFillerF0 second) s = .next { s with bf := bf }

/-- R104, R108: the rows of the two decode errors. -/
def Obligations.DecodeErrorRowsResult : Prop :=
  ∀ (s : State) (ext p second : Bool) (b : Byte), 0 < s.bfCount →
    let bf := { s.bf with tail := (s.bf.tail + 1) % s.params.nB }
    exec .dPrefixErrExt s = .next { s with
      bf := bf, dstate := dWaitStart, errlog := s.errlog ++ [0x6#4] } ∧
    exec (.dPrefixErrBrk ext p) s = .next { s with
      bf := bf, dstate := dWaitStart, errlog := s.errlog ++ [0x6#4] } ∧
    exec (.dPauseErr second b) s = .next { s with
      bf := bf, dstate := dWaitStart, errlog := s.errlog ++ [0x7#4] }

/-- R94, R95, R99, R101, R102, R103, R107: the rows that emit an event. `x` is the lookup result (none: unmapped), `rel`
the type; a stored event goes to KF's head, a full KF drops it with one error, and an unmapped byte leaves nothing unless
`EMIT_UNMAPPED`, which sends `KC_INVALID`. What a lookup reads is `TablesReadTheirEntries`. -/
def Obligations.EventRowsResult : Prop :=
  ∀ (s : State) (b : Byte), 0 < s.bfCount →
    let bf := { s.bf with tail := (s.bf.tail + 1) % s.params.nB }
    ∀ row ∈ [(Instr.dMake b, lookup s.params s.params.normalTable b, false),
        (.dExtMake b, lookup s.params s.params.extTable b, false),
        (.dBreak b, lookup s.params s.params.normalTable b, true),
        (.dExtBreak b, lookup s.params s.params.extTable b, true),
        (.dPause77B, some s.params.kcPause, false)],
      (row.2.1 = none → s.params.emitUnmapped = false →
        exec row.1 s = .next { s with bf := bf, dstate := dWaitStart }) ∧
      ∀ k, (row.2.1 = some k ∨ (row.2.1 = none ∧ s.params.emitUnmapped = true ∧ k = s.params.kcInvalid)) →
        ((s.kf.head + 1) % s.params.nK = s.kf.tail →
          exec row.1 s = .next { s with
            bf := bf, dstate := dWaitStart, errlog := s.errlog ++ [0x8#4] }) ∧
        ((s.kf.head + 1) % s.params.nK ≠ s.kf.tail →
          exec row.1 s = .next { s with
            bf := bf
            dstate := dWaitStart
            kf := { s.kf with
              slots := s.kf.slots.set s.kf.head (BitVec.ofBool row.2.2 ++ k)
              head := (s.kf.head + 1) % s.params.nK } })

/-- R93: from every state with a byte in BF and a legal `dstate`, `DEC_STEP` has a next state, in which exactly one byte
is consumed, at most one event is stored, at most one error is raised and nothing but BF's tail, `dstate`, KF and the
error history is written. -/
def Obligations.DecStepFrame : Prop :=
  ∀ s : State, 0 < s.bfCount → legalDstate s.dstate = true → ∃ t, exec .decStep s = .next t ∧
    t = { s with
      bf := { s.bf with tail := (s.bf.tail + 1) % s.params.nB }
      dstate := t.dstate
      kf := t.kf
      errlog := t.errlog } ∧
    (t.kf = s.kf ∨ (t.errlog = s.errlog ∧ ∃ e, t.kf = s.kf.put s.params.nK e)) ∧
    (t.errlog = s.errlog ∨ ∃ e, t.errlog = s.errlog ++ [e])

/-- R109: `F0 E0 x`, with x not a prefix byte and not 0xE1, is one decode error and then a Pressed event of x from
NORMAL_TABLE, not a Released one. -/
def Obligations.BreakThenExtensionFallsThrough : Prop :=
  ∀ (s : State) (x : Byte) (left : List Byte) (rest : List Event),
    2 ≤ s.params.nB → Ring.Legal s.params.nB s.bf → s.dstate = dWaitStart →
    s.bf.contents s.params.nB = 0xF0 :: 0xE0 :: x :: left →
    x ≠ 0xE0 → x ≠ 0xF0 → x ≠ 0xE1 → s.events = .decStep :: .decStep :: .decStep :: rest →
    ∃ t, run 3 s = .next t ∧ t.dstate = dWaitStart ∧ t.bf.contents s.params.nB = left ∧ t.events = rest ∧
      t.kf = (pushEvent (lookup s.params s.params.normalTable x) false s).kf ∧
      t.errlog = (pushEvent (lookup s.params s.params.normalTable x) false
        { s with errlog := s.errlog ++ [0x6#4] }).errlog

/-- R110: every sequence `E1 f* 77 f* 77` with fillers f gives exactly one Pressed event of `KC_PAUSE` and no decode
error; a full KF drops that one event with its one overflow error (R107). -/
def Obligations.PauseSequenceGivesOneEvent : Prop :=
  ∀ (s : State) (f g left : List Byte) (rest : List Event),
    2 ≤ s.params.nB → Ring.Legal s.params.nB s.bf → s.dstate = dWaitStart →
    (∀ b ∈ f, isFiller b = true) → (∀ b ∈ g, isFiller b = true) →
    s.bf.contents s.params.nB = [0xE1] ++ f ++ [0x77] ++ g ++ [0x77] ++ left →
    s.events = List.replicate (f.length + g.length + 3) Event.decStep ++ rest →
    ∃ t, run (f.length + g.length + 3) s = .next t ∧ t.dstate = dWaitStart ∧
      t.bf.contents s.params.nB = left ∧ t.events = rest ∧
      if s.kf.full s.params.nK then t.errlog = s.errlog ++ [0x8#4] ∧ t.kf = s.kf
      else t.errlog = s.errlog ∧ t.kf = s.kf.put s.params.nK (0b0#1 ++ s.params.kcPause)

/-- R134, R138: the reference tables and keycodes meet the constraints the source settles, and no entry maps to
`KC_PAUSE`. The tables and keycodes are PRESUMED by the spec itself (log entry 14), and that the model takes them as its
reference is its choice (log entry 3). -/
def Obligations.ReferenceTablesMeetConstraints : Prop :=
  Params.Valid Config.reference ∧ Params.SourceTables Config.reference ∧
  ∀ b : Byte, lookup Config.reference Config.referenceNormal b ≠ some Config.reference.kcPause ∧
    lookup Config.reference Config.referenceExt b ≠ some Config.reference.kcPause

/-! ### The host port -/

/-- R116: `AVAIL`. -/
def Obligations.AvailResult : Prop :=
  ∀ (s : State) (a0 a1 : Byte), s.PortFree →
    exec (.avail a0 a1) s = .next { s with
      resp := s.resp ++ [.count (
        if 0 < s.kf.count s.params.nK then s.kf.count s.params.nK
        else if s.params.reportInterval ≠ 0 ∧ s.params.reportInterval ≤ s.hbCount then 1
        else 0)] }

/-- R117 without a lock-key release: nothing pending, a Pressed event (with Pause released again after its report), a
Released event of another key. What the hook `TRANSFORM` reads is `TablesReadTheirEntries`. -/
def Obligations.ReadReportAnswersAtOnce : Prop :=
  ∀ (s : State) (a0 a1 : Byte), s.PortFree →
    let k := transformKey s.params (s.kf.front.extractLsb' 0 8)
    let kf := { s.kf with tail := (s.kf.tail + 1) % s.params.nK }
    (s.kf.count s.params.nK = 0 →
      exec (.readReport a0 a1) s = .next { s with
        hbCount := 0, resp := s.resp ++ [.report (formatReport s.params s.bm)] }) ∧
    (0 < s.kf.count s.params.nK → s.kf.front.getLsbD 8 = false →
      exec (.readReport a0 a1) s = .next { s with
        kf := kf
        bm := if k = s.params.kcPause then bmWrite (bmWrite s.bm k true) k false else bmWrite s.bm k true
        hbCount := 0
        resp := s.resp ++ [.report (formatReport s.params (bmWrite s.bm k true))] }) ∧
    (0 < s.kf.count s.params.nK → s.kf.front.getLsbD 8 = true →
      k ≠ s.params.kcScroll → k ≠ s.params.kcNum → k ≠ s.params.kcCaps →
      exec (.readReport a0 a1) s = .next { s with
        kf := kf
        bm := bmWrite s.bm k false
        hbCount := 0
        resp := s.resp ++ [.report (formatReport s.params (bmWrite s.bm k false))] })

/-- R117, R131: each Released event of a lock key toggles its LED once, queues 0xED and the new mask, and latches the
report; a Pressed event of it leaves `leds` alone. -/
def Obligations.LockKeyReleaseTogglesLed : Prop :=
  ∀ (s : State) (a0 a1 : Byte), s.PortFree → Params.Valid s.params → 0 < s.kf.count s.params.nK →
    let k := transformKey s.params (s.kf.front.extractLsb' 0 8)
    ∀ lock ∈ [(s.params.kcScroll, 0b001#3), (s.params.kcNum, 0b010#3), (s.params.kcCaps, 0b100#3)], k = lock.1 →
      (s.kf.front.getLsbD 8 = true →
        exec (.readReport a0 a1) s = .next { s with
          kf := { s.kf with tail := (s.kf.tail + 1) % s.params.nK }
          bm := bmWrite s.bm k false
          leds := s.leds ^^^ lock.2
          hbCount := 0
          txq0 := 0xED
          txq1 := (s.leds ^^^ lock.2).setWidth 8
          txqLen := 2
          fgWait := true
          pendValid := true
          pendRpt := formatReport s.params (bmWrite s.bm k false) }) ∧
      (s.kf.front.getLsbD 8 = false → ∃ t, exec (.readReport a0 a1) s = .next t ∧ t.leds = s.leds)

/-- R115, R118, R119, R121: the operations that only queue bytes. -/
def Obligations.WriteOpsQueueBytes : Prop :=
  ∀ (s : State) (a0 a1 : Byte), s.PortFree →
    exec (.write a0 a1) s = .next { s with
      txq0 := a0, txqLen := 1, fgWait := false, pendValid := false } ∧
    exec (.writeWait a0 a1) s = .next { s with
      txq0 := a0, txqLen := 1, fgWait := true, pendValid := false } ∧
    exec (.setTypematic a0 a1) s = .next { s with
      txq0 := 0xF3, txq1 := a0, txqLen := 2, fgWait := true, pendValid := false }

/-- R120, R122: `RESET_KBD` and `SET_LEDS`. The byte `SET_LEDS` queues is the merged LED state. -/
def Obligations.ResetAndSetLedsResult : Prop :=
  ∀ (s : State) (a0 a1 : Byte), s.PortFree →
    exec (.resetKbd a0 a1) s = .next { s with
      bm := 0, leds := 0, txq0 := 0xFF, txqLen := 1, fgWait := true, pendValid := false } ∧
    ∃ new : LedMask,
      (∀ i < 3, new.getLsbD i = if a0.getLsbD i then a1.getLsbD i else s.leds.getLsbD i) ∧
      exec (.setLeds a0 a1) s = .next { s with
        leds := new, txq0 := 0xED, txq1 := new.setWidth 8, txqLen := 2, fgWait := true, pendValid := false }

/-- R123: the reserved op answers `Done` and changes no register. -/
def Obligations.ReservedOpAnswersDone : Prop :=
  (∀ a0 a1, decode (.hostReq (0b111#3 ++ a0 ++ a1)) = .ok (.reservedOp111 a0 a1)) ∧
  ∀ (s : State) (a0 a1 : Byte), s.PortFree →
    exec (.reservedOp111 a0 a1) s = .next { s with resp := s.resp ++ [.done] }

/-- R113 and the model's choice of log entry 7: while `fg_busy = 1` a host request has no move and leaves the state as it
is. -/
def Obligations.HostWaitsWhileBusy : Prop :=
  ∀ (s : State) (a0 a1 : Byte), s.fgPhase ≠ 0b11#2 → (s.fgPhase ≠ fgIdle ∨ s.txqLen ≠ 0) →
    ∀ i ∈ [Instr.avail a0 a1, .readReport a0 a1, .write a0 a1, .writeWait a0 a1, .resetKbd a0 a1,
      .setTypematic a0 a1, .setLeds a0 a1, .reservedOp111 a0 a1], exec i s = .next s

/-- R17, R116 to R123: what no host operation touches: LE, BF, `dstate`, the error history, the pulse counter and the
phase; KF's slots and head; and each operation answers at once or queues bytes, never both. -/
def Obligations.HostFrame : Prop :=
  ∀ (s t : State) (a0 a1 : Byte),
    ∀ i ∈ [Instr.avail a0 a1, .readReport a0 a1, .write a0 a1, .writeWait a0 a1, .resetKbd a0 a1,
      .setTypematic a0 a1, .setLeds a0 a1, .reservedOp111 a0 a1], exec i s = .next t →
      t.leState = s.leState ∧ t.current = s.current ∧ t.parity = s.parity ∧ t.txbuf = s.txbuf ∧ t.rts = s.rts ∧
      t.attached = s.attached ∧ t.clkDriveLow = s.clkDriveLow ∧ t.dataDriveLow = s.dataDriveLow ∧
      t.pulseCount = s.pulseCount ∧ t.bf = s.bf ∧ t.dstate = s.dstate ∧ t.errlog = s.errlog ∧
      t.fgPhase = s.fgPhase ∧ t.params = s.params ∧ t.kf.slots = s.kf.slots ∧ t.kf.head = s.kf.head ∧
      ((∃ r, t.resp = s.resp ++ [r] ∧ t.txqLen = s.txqLen) ∨
        (t.resp = s.resp ∧ t.txqLen ≠ 0 ∧ s.fgBusy = false) ∨ (t = s ∧ s.fgBusy = true))

/-- R42: a bitmap write writes that bit and no other. -/
def Obligations.BitmapWriteHitsOneBit : Prop :=
  ∀ (bm : Bitmap) (k j : Byte) (v : Bool), bmRead (bmWrite bm k v) j = if j = k then v else bmRead bm j

/-- R65, R66, R124: the report: the modifier byte from the bitmap, then the pressed non-modifier keys in ascending order
padded with 0x00, or the sentinel in all six slots when there are more than six. -/
def Obligations.ReportLayout : Prop :=
  ∀ (p : Params) (bm : Bitmap),
    let rpt := formatReport p bm
    (∀ i < 8, rpt.getLsbD i = bm.getLsbD (0xE0 + i)) ∧
    ∃ keys : List Byte,
      keys.Pairwise (fun a b => a.toNat < b.toNat) ∧
      (∀ k : Byte, k ∈ keys ↔ bmRead bm k = true ∧ ¬ (0xE0 ≤ k.toNat ∧ k.toNat ≤ 0xE7)) ∧
      ∀ j < 6, slotOf rpt j = if 6 < keys.length then p.kcRollover else keys.getD j 0

/-- R125: seven or more pressed non-modifier keys give six sentinels; when there are at most six, every one of them is
reported and every slot holds a pressed key or 0x00; the modifier byte is formed from the bitmap in both cases. Where
`KC_ROLLOVER` is neither 0x00 nor itself a pressed non-modifier key, six sentinels mean seven or more pressed keys. -/
def Obligations.RolloverIffMoreThanSix : Prop :=
  ∀ (p : Params) (bm : Bitmap),
    ((∃ ks : List Byte, ks.Nodup ∧ ks.length = 7 ∧ ∀ k ∈ ks, bmRead bm k = true ∧ isModifier k = false) →
      ∀ j < 6, slotOf (formatReport p bm) j = p.kcRollover) ∧
    ((∀ ks : List Byte, ks.Nodup → (∀ k ∈ ks, bmRead bm k = true ∧ isModifier k = false) → ks.length ≤ 6) →
      (∀ k, bmRead bm k = true → isModifier k = false → ∃ j < 6, slotOf (formatReport p bm) j = k) ∧
      ∀ j < 6, slotOf (formatReport p bm) j = 0 ∨
        (bmRead bm (slotOf (formatReport p bm) j) = true ∧ isModifier (slotOf (formatReport p bm) j) = false)) ∧
    (p.kcRollover ≠ 0 → ¬ (bmRead bm p.kcRollover = true ∧ isModifier p.kcRollover = false) →
      ((∀ j < 6, slotOf (formatReport p bm) j = p.kcRollover) ↔
        ∃ ks : List Byte, ks.Nodup ∧ ks.length = 7 ∧ ∀ k ∈ ks, bmRead bm k = true ∧ isModifier k = false)) ∧
    ∀ i < 8, (formatReport p bm).getLsbD i = bm.getLsbD (0xE0 + i)

/-- R132: the report answered for a Pressed `KC_PAUSE` shows Pause (unless more than six keys are pressed), and the next
report with no further event does not. -/
def Obligations.PauseReleasesItself : Prop :=
  ∀ (s t : State) (a0 a1 : Byte), s.PortFree → s.kf.count s.params.nK = 1 → s.kf.front.getLsbD 8 = false →
    transformKey s.params (s.kf.front.extractLsb' 0 8) = s.params.kcPause → isModifier s.params.kcPause = false →
    s.params.kcPause ≠ 0 → s.params.kcPause ≠ s.params.kcRollover →
    2 ≤ s.params.nK → Ring.Legal s.params.nK s.kf →
    exec (.readReport a0 a1) s = .next t →
    (∃ r, t.resp = s.resp ++ [.report r] ∧
      ((pressedKeys (bmWrite s.bm s.params.kcPause true)).length ≤ 6 → ∃ j < 6, slotOf r j = s.params.kcPause)) ∧
    bmRead t.bm s.params.kcPause = false ∧
    ∃ u r, exec (.readReport a0 a1) t = .next u ∧ u.resp = t.resp ++ [.report r] ∧
      ∀ j < 6, slotOf r j ≠ s.params.kcPause

/-! ### The sequencer and the timer -/

/-- R81, R127: `FG_RTS`. -/
def Obligations.FgRtsResult : Prop :=
  ∀ s : State, s.fgPhase = fgIdle → s.txqLen ≠ 0 →
    exec .fgRts s = .next { s with
      attached := false
      clkDriveLow := true
      dataDriveLow := true
      txbuf := s.txq0
      rts := true
      txq0 := if s.txqLen = 2 then s.txq1 else s.txq0
      txqLen := s.txqLen - 1
      fgPhase := fgInRts }

/-- R68, R127 and the model's reading of log entry 8: transmitting a command byte is the `FG_RTS` that takes it from the
queue. -/
def Obligations.CommandBytesAreSentByRts : Prop :=
  ∀ s : State, s.fgPhase = fgIdle → s.txqLen ≠ 0 →
    ∀ cmd ∈ [(Instr.kbdCmdReset, 0xFF#8), (.kbdCmdTypematic, 0xF3#8), (.kbdCmdSetLeds, 0xED#8)],
      decode (.kbdCmd cmd.2) = .ok cmd.1 ∧
      exec cmd.1 s = .next { s with
        attached := false
        clkDriveLow := true
        dataDriveLow := true
        txbuf := cmd.2
        rts := true
        txq0 := if s.txqLen = 2 then s.txq1 else s.txq0
        txqLen := s.txqLen - 1
        fgPhase := fgInRts } ∧
      (s.txq0 = cmd.2 → exec cmd.1 s = exec .fgRts s)

/-- R82, R128, R130: `FG_PRIME`: the primed line engine; with `fg_wait` the phase is `WAIT`; without it the phase is
`IDLE`, and the sequence's response is answered when no byte is left. -/
def Obligations.FgPrimeResult : Prop :=
  ∀ s : State, s.fgPhase = fgInRts →
    exec .fgPrime s = .next { s with
      leState := leWaitSendData 0
      current := s.txbuf
      parity := true
      clkDriveLow := false
      attached := true
      rts := false
      fgPhase := if s.fgWait then fgInWait else fgIdle
      pendValid := if s.fgWait = false ∧ s.txqLen = 0 then false else s.pendValid
      resp := if s.fgWait = false ∧ s.txqLen = 0
        then s.resp ++ [if s.pendValid then .report s.pendRpt else .done] else s.resp }

/-- R129, R130: `FG_DONE`. -/
def Obligations.FgDoneResult : Prop :=
  ∀ s : State, s.fgPhase = fgInWait → isSendState s.leState = false →
    exec .fgDone s = .next { s with
      fgPhase := fgIdle
      pendValid := if s.txqLen = 0 then false else s.pendValid
      resp := if s.txqLen = 0 then s.resp ++ [if s.pendValid then .report s.pendRpt else .done] else s.resp }

/-- R127, R128, R129 and the model's choice of log entry 7: an FG step that is not enabled leaves the state as it is. -/
def Obligations.FgStepsWaitWhenDisabled : Prop :=
  ∀ s : State, s.fgPhase ≠ 0b11#2 →
    (¬ (s.fgPhase = fgIdle ∧ s.txqLen ≠ 0) →
      ∀ i ∈ [Instr.fgRts, .kbdCmdReset, .kbdCmdTypematic, .kbdCmdSetLeds], exec i s = .next s) ∧
    (s.fgPhase ≠ fgInRts → exec .fgPrime s = .next s) ∧
    (¬ (s.fgPhase = fgInWait ∧ isSendState s.leState = false) → exec .fgDone s = .next s)

/-- R17, R127 to R130: what no FG step touches. -/
def Obligations.SequencerFrame : Prop :=
  ∀ (s t : State), ∀ i ∈ [Instr.fgRts, .fgPrime, .fgDone, .kbdCmdReset, .kbdCmdTypematic, .kbdCmdSetLeds],
    exec i s = .next t →
      t.params = s.params ∧ t.pulseCount = s.pulseCount ∧ t.bf = s.bf ∧ t.dstate = s.dstate ∧ t.kf = s.kf ∧
      t.bm = s.bm ∧ t.leds = s.leds ∧ t.hbCount = s.hbCount ∧ t.txq1 = s.txq1 ∧ t.fgWait = s.fgWait ∧
      t.pendRpt = s.pendRpt ∧ t.errlog = s.errlog ∧ (t.resp = s.resp ∨ ∃ r, t.resp = s.resp ++ [r]) ∧
      (i = .fgDone → t.leState = s.leState ∧ t.current = s.current ∧ t.parity = s.parity ∧ t.txbuf = s.txbuf ∧
        t.rts = s.rts ∧ t.attached = s.attached ∧ t.clkDriveLow = s.clkDriveLow ∧ t.dataDriveLow = s.dataDriveLow) ∧
      (i = .fgPrime → t.txbuf = s.txbuf ∧ t.dataDriveLow = s.dataDriveLow ∧ t.txq0 = s.txq0 ∧ t.txqLen = s.txqLen)

/-- R126: `TICK`, in every state, busy or not. -/
def Obligations.TickSaturates : Prop :=
  ∀ s : State,
    exec .tick s = .next { s with hbCount := min (s.hbCount + 1) (2 ^ s.params.hbW - 1) }

/-- R113, R114, R118, R127, R128: a plain `WRITE` from a free port is answered `Done` at its `FG_PRIME`, with the byte
primed and the port free again. -/
def Obligations.WriteIsDoneAtPrime : Prop :=
  ∀ (s : State) (b a1 : Byte) (rest : List Event), s.PortFree →
    s.events = .hostOp 0b010#3 b a1 :: .fgRts :: .fgPrime :: rest →
    ∃ t, run 3 s = .next t ∧ t.resp = s.resp ++ [.done] ∧ t.PortFree ∧ t.leState = leWaitSendData 0 ∧
      t.current = b ∧ t.parity = true ∧ t.attached = true ∧ t.events = rest

/-- R159: while the sequencer waits and LE is in a send state, any run of steps without an edge leaves it so: the port
stays busy and no response is appended. That an offered step which is not enabled passes is the model's choice (log
entry 7). -/
def Obligations.WaitHangsWithoutEdges : Prop :=
  ∀ (s : State) (evs rest : List Event), s.Inv → s.fgPhase = fgInWait → isSendState s.leState = true →
    (∀ e ∈ evs, ∀ d, e ≠ .edge d) → s.events = evs ++ rest →
    ∃ t, run evs.length s = .next t ∧ t.events = rest ∧ t.fgPhase = fgInWait ∧ isSendState t.leState = true ∧
      t.fgBusy = true ∧ t.resp = s.resp

/-! ### The constant tables -/

/-- R43, R94, R133: a lookup yields the entry stored at its index, or unmapped where that entry is `KC_INVALID`; the hook
`TRANSFORM` yields the entry stored, and a keycode to which it gives none is its own. That an index a table does not list
holds `KC_INVALID`, and that the first of two entries at one index counts, is the form of the tables in the model (log
entry 2). -/
def Obligations.TablesReadTheirEntries : Prop :=
  ∀ (p : Params) (b : Byte),
    (∀ (t before after : Table) (k : Byte), t = before ++ (b, k) :: after → (∀ e ∈ before, e.1 ≠ b) →
      lookup p t b = if k = p.kcInvalid then none else some k) ∧
    (∀ t : Table, (∀ e ∈ t, e.1 ≠ b) → lookup p t b = none) ∧
    (∀ (before after : Table) (k : Byte), p.transform = before ++ (b, k) :: after → (∀ e ∈ before, e.1 ≠ b) →
      transformKey p b = k) ∧
    ((∀ e ∈ p.transform, e.1 ≠ b) → transformKey p b = b)
end

