-- ==== Sys2Proof/Laws/Keys.lean ====
section
/-! SUPPORT. The fields of the decode keys: what a decoder reads back from a key that was put together (R57, R59, R61). -/

namespace Sys2Proof

/-- The high part of a concatenation. -/
theorem extract_high {n m : Nat} (x : BitVec n) (y : BitVec m) : (x ++ y).extractLsb' m n = x := by
  ext i hi; simp [BitVec.getLsbD_append, BitVec.getLsbD_eq_getElem hi]

/-- The low part of a concatenation. -/
theorem extract_low {n m : Nat} (x : BitVec n) (y : BitVec m) : (x ++ y).extractLsb' 0 m = y := by
  ext i hi; simp [BitVec.getLsbD_append, hi]

/-- The middle part of a concatenation of three. -/
theorem extract_middle {n m k : Nat} (x : BitVec n) (y : BitVec m) (z : BitVec k) :
    (x ++ y ++ z).extractLsb' k m = y := by
  ext i hi; simp [BitVec.getLsbD_append, hi]

/-- The highest part of a concatenation of three. -/
theorem extract_highest {n m k : Nat} (x : BitVec n) (y : BitVec m) (z : BitVec k) :
    (x ++ y ++ z).extractLsb' (m + k) n = x := by
  ext i hi
  have h1 : ¬ m + k + i < k := by omega
  have h2 : ¬ m + k + i - k < m := by omega
  have h3 : m + k + i - k - m = i := by omega
  simp [BitVec.getLsbD_append, h1, h2, h3, BitVec.getLsbD_eq_getElem hi]

@[simp] theorem edgeKey_le (le : BitVec 5) (d : Bool) : (edgeKey le d).extractLsb' 1 5 = le :=
  extract_high le (BitVec.ofBool d)

@[simp] theorem edgeKey_index (le : BitVec 5) (d : Bool) : (edgeKey le d).extractLsb' 1 3 = le.extractLsb' 0 3 := by
  revert le d; decide

@[simp] theorem edgeKey_data (le : BitVec 5) (d : Bool) : (edgeKey le d).getLsbD 0 = d := by
  revert le d; decide

@[simp] theorem decKey_state (ds : BitVec 3) (b : Byte) : (decKey ds b).extractLsb' 8 3 = ds := extract_high ds b

@[simp] theorem decKey_byte (ds : BitVec 3) (b : Byte) : (decKey ds b).extractLsb' 0 8 = b := extract_low ds b

@[simp] theorem hostKey_op (op : BitVec 3) (a0 a1 : Byte) : (hostKey op a0 a1).extractLsb' 16 3 = op :=
  extract_highest op a0 a1

@[simp] theorem hostKey_a0 (op : BitVec 3) (a0 a1 : Byte) : (hostKey op a0 a1).extractLsb' 8 8 = a0 :=
  extract_middle op a0 a1

@[simp] theorem hostKey_a1 (op : BitVec 3) (a0 a1 : Byte) : (hostKey op a0 a1).extractLsb' 0 8 = a1 :=
  extract_low (op ++ a0) a1

end Sys2Proof
end

