-- ==== Sys2Proof/Laws/State.lean ====
section
/-! SUPPORT. One lemma per field per named update: what each shared operation of Machine/Ops.lean writes, and that it
leaves every other field alone. No later proof unfolds one of these updates. -/

namespace Sys2Proof.Machine

/-! ### `raiseErr` -/

@[simp] theorem raiseErr_params (e : ErrCode) (s : State) : (raiseErr e s).params = s.params := rfl
@[simp] theorem raiseErr_leState (e : ErrCode) (s : State) : (raiseErr e s).leState = s.leState := rfl
@[simp] theorem raiseErr_current (e : ErrCode) (s : State) : (raiseErr e s).current = s.current := rfl
@[simp] theorem raiseErr_parity (e : ErrCode) (s : State) : (raiseErr e s).parity = s.parity := rfl
@[simp] theorem raiseErr_txbuf (e : ErrCode) (s : State) : (raiseErr e s).txbuf = s.txbuf := rfl
@[simp] theorem raiseErr_rts (e : ErrCode) (s : State) : (raiseErr e s).rts = s.rts := rfl
@[simp] theorem raiseErr_attached (e : ErrCode) (s : State) : (raiseErr e s).attached = s.attached := rfl
@[simp] theorem raiseErr_clkDriveLow (e : ErrCode) (s : State) : (raiseErr e s).clkDriveLow = s.clkDriveLow := rfl
@[simp] theorem raiseErr_dataDriveLow (e : ErrCode) (s : State) : (raiseErr e s).dataDriveLow = s.dataDriveLow := rfl
@[simp] theorem raiseErr_pulseCount (e : ErrCode) (s : State) : (raiseErr e s).pulseCount = s.pulseCount := rfl
@[simp] theorem raiseErr_bf (e : ErrCode) (s : State) : (raiseErr e s).bf = s.bf := rfl
@[simp] theorem raiseErr_dstate (e : ErrCode) (s : State) : (raiseErr e s).dstate = s.dstate := rfl
@[simp] theorem raiseErr_kf (e : ErrCode) (s : State) : (raiseErr e s).kf = s.kf := rfl
@[simp] theorem raiseErr_bm (e : ErrCode) (s : State) : (raiseErr e s).bm = s.bm := rfl
@[simp] theorem raiseErr_leds (e : ErrCode) (s : State) : (raiseErr e s).leds = s.leds := rfl
@[simp] theorem raiseErr_hbCount (e : ErrCode) (s : State) : (raiseErr e s).hbCount = s.hbCount := rfl
@[simp] theorem raiseErr_fgPhase (e : ErrCode) (s : State) : (raiseErr e s).fgPhase = s.fgPhase := rfl
@[simp] theorem raiseErr_txqLen (e : ErrCode) (s : State) : (raiseErr e s).txqLen = s.txqLen := rfl
@[simp] theorem raiseErr_txq0 (e : ErrCode) (s : State) : (raiseErr e s).txq0 = s.txq0 := rfl
@[simp] theorem raiseErr_txq1 (e : ErrCode) (s : State) : (raiseErr e s).txq1 = s.txq1 := rfl
@[simp] theorem raiseErr_fgWait (e : ErrCode) (s : State) : (raiseErr e s).fgWait = s.fgWait := rfl
@[simp] theorem raiseErr_pendValid (e : ErrCode) (s : State) : (raiseErr e s).pendValid = s.pendValid := rfl
@[simp] theorem raiseErr_pendRpt (e : ErrCode) (s : State) : (raiseErr e s).pendRpt = s.pendRpt := rfl
@[simp] theorem raiseErr_errlog (e : ErrCode) (s : State) : (raiseErr e s).errlog = s.errlog ++ [errCode e] := rfl
@[simp] theorem raiseErr_resp (e : ErrCode) (s : State) : (raiseErr e s).resp = s.resp := rfl
@[simp] theorem raiseErr_events (e : ErrCode) (s : State) : (raiseErr e s).events = s.events := rfl
@[simp] theorem raiseErr_eventPos (e : ErrCode) (s : State) : (raiseErr e s).eventPos = s.eventPos := rfl

/-! ### `emitResp` -/

@[simp] theorem emitResp_params (x : Resp) (s : State) : (emitResp x s).params = s.params := rfl
@[simp] theorem emitResp_leState (x : Resp) (s : State) : (emitResp x s).leState = s.leState := rfl
@[simp] theorem emitResp_current (x : Resp) (s : State) : (emitResp x s).current = s.current := rfl
@[simp] theorem emitResp_parity (x : Resp) (s : State) : (emitResp x s).parity = s.parity := rfl
@[simp] theorem emitResp_txbuf (x : Resp) (s : State) : (emitResp x s).txbuf = s.txbuf := rfl
@[simp] theorem emitResp_rts (x : Resp) (s : State) : (emitResp x s).rts = s.rts := rfl
@[simp] theorem emitResp_attached (x : Resp) (s : State) : (emitResp x s).attached = s.attached := rfl
@[simp] theorem emitResp_clkDriveLow (x : Resp) (s : State) : (emitResp x s).clkDriveLow = s.clkDriveLow := rfl
@[simp] theorem emitResp_dataDriveLow (x : Resp) (s : State) : (emitResp x s).dataDriveLow = s.dataDriveLow := rfl
@[simp] theorem emitResp_pulseCount (x : Resp) (s : State) : (emitResp x s).pulseCount = s.pulseCount := rfl
@[simp] theorem emitResp_bf (x : Resp) (s : State) : (emitResp x s).bf = s.bf := rfl
@[simp] theorem emitResp_dstate (x : Resp) (s : State) : (emitResp x s).dstate = s.dstate := rfl
@[simp] theorem emitResp_kf (x : Resp) (s : State) : (emitResp x s).kf = s.kf := rfl
@[simp] theorem emitResp_bm (x : Resp) (s : State) : (emitResp x s).bm = s.bm := rfl
@[simp] theorem emitResp_leds (x : Resp) (s : State) : (emitResp x s).leds = s.leds := rfl
@[simp] theorem emitResp_hbCount (x : Resp) (s : State) : (emitResp x s).hbCount = s.hbCount := rfl
@[simp] theorem emitResp_fgPhase (x : Resp) (s : State) : (emitResp x s).fgPhase = s.fgPhase := rfl
@[simp] theorem emitResp_txqLen (x : Resp) (s : State) : (emitResp x s).txqLen = s.txqLen := rfl
@[simp] theorem emitResp_txq0 (x : Resp) (s : State) : (emitResp x s).txq0 = s.txq0 := rfl
@[simp] theorem emitResp_txq1 (x : Resp) (s : State) : (emitResp x s).txq1 = s.txq1 := rfl
@[simp] theorem emitResp_fgWait (x : Resp) (s : State) : (emitResp x s).fgWait = s.fgWait := rfl
@[simp] theorem emitResp_pendValid (x : Resp) (s : State) : (emitResp x s).pendValid = s.pendValid := rfl
@[simp] theorem emitResp_pendRpt (x : Resp) (s : State) : (emitResp x s).pendRpt = s.pendRpt := rfl
@[simp] theorem emitResp_errlog (x : Resp) (s : State) : (emitResp x s).errlog = s.errlog := rfl
@[simp] theorem emitResp_resp (x : Resp) (s : State) : (emitResp x s).resp = s.resp ++ [x] := rfl
@[simp] theorem emitResp_events (x : Resp) (s : State) : (emitResp x s).events = s.events := rfl
@[simp] theorem emitResp_eventPos (x : Resp) (s : State) : (emitResp x s).eventPos = s.eventPos := rfl

/-! ### `popBf` -/

@[simp] theorem popBf_params (s : State) : (popBf s).params = s.params := rfl
@[simp] theorem popBf_leState (s : State) : (popBf s).leState = s.leState := rfl
@[simp] theorem popBf_current (s : State) : (popBf s).current = s.current := rfl
@[simp] theorem popBf_parity (s : State) : (popBf s).parity = s.parity := rfl
@[simp] theorem popBf_txbuf (s : State) : (popBf s).txbuf = s.txbuf := rfl
@[simp] theorem popBf_rts (s : State) : (popBf s).rts = s.rts := rfl
@[simp] theorem popBf_attached (s : State) : (popBf s).attached = s.attached := rfl
@[simp] theorem popBf_clkDriveLow (s : State) : (popBf s).clkDriveLow = s.clkDriveLow := rfl
@[simp] theorem popBf_dataDriveLow (s : State) : (popBf s).dataDriveLow = s.dataDriveLow := rfl
@[simp] theorem popBf_pulseCount (s : State) : (popBf s).pulseCount = s.pulseCount := rfl
@[simp] theorem popBf_bf (s : State) : (popBf s).bf = s.bf.drop s.params.nB := rfl
@[simp] theorem popBf_dstate (s : State) : (popBf s).dstate = s.dstate := rfl
@[simp] theorem popBf_kf (s : State) : (popBf s).kf = s.kf := rfl
@[simp] theorem popBf_bm (s : State) : (popBf s).bm = s.bm := rfl
@[simp] theorem popBf_leds (s : State) : (popBf s).leds = s.leds := rfl
@[simp] theorem popBf_hbCount (s : State) : (popBf s).hbCount = s.hbCount := rfl
@[simp] theorem popBf_fgPhase (s : State) : (popBf s).fgPhase = s.fgPhase := rfl
@[simp] theorem popBf_txqLen (s : State) : (popBf s).txqLen = s.txqLen := rfl
@[simp] theorem popBf_txq0 (s : State) : (popBf s).txq0 = s.txq0 := rfl
@[simp] theorem popBf_txq1 (s : State) : (popBf s).txq1 = s.txq1 := rfl
@[simp] theorem popBf_fgWait (s : State) : (popBf s).fgWait = s.fgWait := rfl
@[simp] theorem popBf_pendValid (s : State) : (popBf s).pendValid = s.pendValid := rfl
@[simp] theorem popBf_pendRpt (s : State) : (popBf s).pendRpt = s.pendRpt := rfl
@[simp] theorem popBf_errlog (s : State) : (popBf s).errlog = s.errlog := rfl
@[simp] theorem popBf_resp (s : State) : (popBf s).resp = s.resp := rfl
@[simp] theorem popBf_events (s : State) : (popBf s).events = s.events := rfl
@[simp] theorem popBf_eventPos (s : State) : (popBf s).eventPos = s.eventPos := rfl

/-! ### `popKf` -/

@[simp] theorem popKf_params (s : State) : (popKf s).params = s.params := rfl
@[simp] theorem popKf_leState (s : State) : (popKf s).leState = s.leState := rfl
@[simp] theorem popKf_current (s : State) : (popKf s).current = s.current := rfl
@[simp] theorem popKf_parity (s : State) : (popKf s).parity = s.parity := rfl
@[simp] theorem popKf_txbuf (s : State) : (popKf s).txbuf = s.txbuf := rfl
@[simp] theorem popKf_rts (s : State) : (popKf s).rts = s.rts := rfl
@[simp] theorem popKf_attached (s : State) : (popKf s).attached = s.attached := rfl
@[simp] theorem popKf_clkDriveLow (s : State) : (popKf s).clkDriveLow = s.clkDriveLow := rfl
@[simp] theorem popKf_dataDriveLow (s : State) : (popKf s).dataDriveLow = s.dataDriveLow := rfl
@[simp] theorem popKf_pulseCount (s : State) : (popKf s).pulseCount = s.pulseCount := rfl
@[simp] theorem popKf_bf (s : State) : (popKf s).bf = s.bf := rfl
@[simp] theorem popKf_dstate (s : State) : (popKf s).dstate = s.dstate := rfl
@[simp] theorem popKf_kf (s : State) : (popKf s).kf = s.kf.drop s.params.nK := rfl
@[simp] theorem popKf_bm (s : State) : (popKf s).bm = s.bm := rfl
@[simp] theorem popKf_leds (s : State) : (popKf s).leds = s.leds := rfl
@[simp] theorem popKf_hbCount (s : State) : (popKf s).hbCount = s.hbCount := rfl
@[simp] theorem popKf_fgPhase (s : State) : (popKf s).fgPhase = s.fgPhase := rfl
@[simp] theorem popKf_txqLen (s : State) : (popKf s).txqLen = s.txqLen := rfl
@[simp] theorem popKf_txq0 (s : State) : (popKf s).txq0 = s.txq0 := rfl
@[simp] theorem popKf_txq1 (s : State) : (popKf s).txq1 = s.txq1 := rfl
@[simp] theorem popKf_fgWait (s : State) : (popKf s).fgWait = s.fgWait := rfl
@[simp] theorem popKf_pendValid (s : State) : (popKf s).pendValid = s.pendValid := rfl
@[simp] theorem popKf_pendRpt (s : State) : (popKf s).pendRpt = s.pendRpt := rfl
@[simp] theorem popKf_errlog (s : State) : (popKf s).errlog = s.errlog := rfl
@[simp] theorem popKf_resp (s : State) : (popKf s).resp = s.resp := rfl
@[simp] theorem popKf_events (s : State) : (popKf s).events = s.events := rfl
@[simp] theorem popKf_eventPos (s : State) : (popKf s).eventPos = s.eventPos := rfl

/-! ### `pushBf` -/

@[simp] theorem pushBf_params (v : Byte) (s : State) : (pushBf v s).params = s.params := by unfold pushBf; split <;> rfl
@[simp] theorem pushBf_leState (v : Byte) (s : State) : (pushBf v s).leState = s.leState := by unfold pushBf; split <;> rfl
@[simp] theorem pushBf_current (v : Byte) (s : State) : (pushBf v s).current = s.current := by unfold pushBf; split <;> rfl
@[simp] theorem pushBf_parity (v : Byte) (s : State) : (pushBf v s).parity = s.parity := by unfold pushBf; split <;> rfl
@[simp] theorem pushBf_txbuf (v : Byte) (s : State) : (pushBf v s).txbuf = s.txbuf := by unfold pushBf; split <;> rfl
@[simp] theorem pushBf_rts (v : Byte) (s : State) : (pushBf v s).rts = s.rts := by unfold pushBf; split <;> rfl
@[simp] theorem pushBf_attached (v : Byte) (s : State) : (pushBf v s).attached = s.attached := by unfold pushBf; split <;> rfl
@[simp] theorem pushBf_clkDriveLow (v : Byte) (s : State) : (pushBf v s).clkDriveLow = s.clkDriveLow := by unfold pushBf; split <;> rfl
@[simp] theorem pushBf_dataDriveLow (v : Byte) (s : State) : (pushBf v s).dataDriveLow = s.dataDriveLow := by unfold pushBf; split <;> rfl
@[simp] theorem pushBf_pulseCount (v : Byte) (s : State) : (pushBf v s).pulseCount = s.pulseCount := by unfold pushBf; split <;> rfl
@[simp] theorem pushBf_bf (v : Byte) (s : State) : (pushBf v s).bf = if s.bf.full s.params.nB then s.bf else s.bf.put s.params.nB v := by unfold pushBf; split <;> rfl
@[simp] theorem pushBf_dstate (v : Byte) (s : State) : (pushBf v s).dstate = s.dstate := by unfold pushBf; split <;> rfl
@[simp] theorem pushBf_kf (v : Byte) (s : State) : (pushBf v s).kf = s.kf := by unfold pushBf; split <;> rfl
@[simp] theorem pushBf_bm (v : Byte) (s : State) : (pushBf v s).bm = s.bm := by unfold pushBf; split <;> rfl
@[simp] theorem pushBf_leds (v : Byte) (s : State) : (pushBf v s).leds = s.leds := by unfold pushBf; split <;> rfl
@[simp] theorem pushBf_hbCount (v : Byte) (s : State) : (pushBf v s).hbCount = s.hbCount := by unfold pushBf; split <;> rfl
@[simp] theorem pushBf_fgPhase (v : Byte) (s : State) : (pushBf v s).fgPhase = s.fgPhase := by unfold pushBf; split <;> rfl
@[simp] theorem pushBf_txqLen (v : Byte) (s : State) : (pushBf v s).txqLen = s.txqLen := by unfold pushBf; split <;> rfl
@[simp] theorem pushBf_txq0 (v : Byte) (s : State) : (pushBf v s).txq0 = s.txq0 := by unfold pushBf; split <;> rfl
@[simp] theorem pushBf_txq1 (v : Byte) (s : State) : (pushBf v s).txq1 = s.txq1 := by unfold pushBf; split <;> rfl
@[simp] theorem pushBf_fgWait (v : Byte) (s : State) : (pushBf v s).fgWait = s.fgWait := by unfold pushBf; split <;> rfl
@[simp] theorem pushBf_pendValid (v : Byte) (s : State) : (pushBf v s).pendValid = s.pendValid := by unfold pushBf; split <;> rfl
@[simp] theorem pushBf_pendRpt (v : Byte) (s : State) : (pushBf v s).pendRpt = s.pendRpt := by unfold pushBf; split <;> rfl
@[simp] theorem pushBf_errlog (v : Byte) (s : State) : (pushBf v s).errlog = if s.bf.full s.params.nB then s.errlog ++ [errCode .byteOverflow] else s.errlog := by unfold pushBf; split <;> rfl
@[simp] theorem pushBf_resp (v : Byte) (s : State) : (pushBf v s).resp = s.resp := by unfold pushBf; split <;> rfl
@[simp] theorem pushBf_events (v : Byte) (s : State) : (pushBf v s).events = s.events := by unfold pushBf; split <;> rfl
@[simp] theorem pushBf_eventPos (v : Byte) (s : State) : (pushBf v s).eventPos = s.eventPos := by unfold pushBf; split <;> rfl

/-! ### `pushKf` -/

@[simp] theorem pushKf_params (e : KeyEvent) (s : State) : (pushKf e s).params = s.params := by unfold pushKf; split <;> rfl
@[simp] theorem pushKf_leState (e : KeyEvent) (s : State) : (pushKf e s).leState = s.leState := by unfold pushKf; split <;> rfl
@[simp] theorem pushKf_current (e : KeyEvent) (s : State) : (pushKf e s).current = s.current := by unfold pushKf; split <;> rfl
@[simp] theorem pushKf_parity (e : KeyEvent) (s : State) : (pushKf e s).parity = s.parity := by unfold pushKf; split <;> rfl
@[simp] theorem pushKf_txbuf (e : KeyEvent) (s : State) : (pushKf e s).txbuf = s.txbuf := by unfold pushKf; split <;> rfl
@[simp] theorem pushKf_rts (e : KeyEvent) (s : State) : (pushKf e s).rts = s.rts := by unfold pushKf; split <;> rfl
@[simp] theorem pushKf_attached (e : KeyEvent) (s : State) : (pushKf e s).attached = s.attached := by unfold pushKf; split <;> rfl
@[simp] theorem pushKf_clkDriveLow (e : KeyEvent) (s : State) : (pushKf e s).clkDriveLow = s.clkDriveLow := by unfold pushKf; split <;> rfl
@[simp] theorem pushKf_dataDriveLow (e : KeyEvent) (s : State) : (pushKf e s).dataDriveLow = s.dataDriveLow := by unfold pushKf; split <;> rfl
@[simp] theorem pushKf_pulseCount (e : KeyEvent) (s : State) : (pushKf e s).pulseCount = s.pulseCount := by unfold pushKf; split <;> rfl
@[simp] theorem pushKf_bf (e : KeyEvent) (s : State) : (pushKf e s).bf = s.bf := by unfold pushKf; split <;> rfl
@[simp] theorem pushKf_dstate (e : KeyEvent) (s : State) : (pushKf e s).dstate = s.dstate := by unfold pushKf; split <;> rfl
@[simp] theorem pushKf_kf (e : KeyEvent) (s : State) : (pushKf e s).kf = if s.kf.full s.params.nK then s.kf else s.kf.put s.params.nK e := by unfold pushKf; split <;> rfl
@[simp] theorem pushKf_bm (e : KeyEvent) (s : State) : (pushKf e s).bm = s.bm := by unfold pushKf; split <;> rfl
@[simp] theorem pushKf_leds (e : KeyEvent) (s : State) : (pushKf e s).leds = s.leds := by unfold pushKf; split <;> rfl
@[simp] theorem pushKf_hbCount (e : KeyEvent) (s : State) : (pushKf e s).hbCount = s.hbCount := by unfold pushKf; split <;> rfl
@[simp] theorem pushKf_fgPhase (e : KeyEvent) (s : State) : (pushKf e s).fgPhase = s.fgPhase := by unfold pushKf; split <;> rfl
@[simp] theorem pushKf_txqLen (e : KeyEvent) (s : State) : (pushKf e s).txqLen = s.txqLen := by unfold pushKf; split <;> rfl
@[simp] theorem pushKf_txq0 (e : KeyEvent) (s : State) : (pushKf e s).txq0 = s.txq0 := by unfold pushKf; split <;> rfl
@[simp] theorem pushKf_txq1 (e : KeyEvent) (s : State) : (pushKf e s).txq1 = s.txq1 := by unfold pushKf; split <;> rfl
@[simp] theorem pushKf_fgWait (e : KeyEvent) (s : State) : (pushKf e s).fgWait = s.fgWait := by unfold pushKf; split <;> rfl
@[simp] theorem pushKf_pendValid (e : KeyEvent) (s : State) : (pushKf e s).pendValid = s.pendValid := by unfold pushKf; split <;> rfl
@[simp] theorem pushKf_pendRpt (e : KeyEvent) (s : State) : (pushKf e s).pendRpt = s.pendRpt := by unfold pushKf; split <;> rfl
@[simp] theorem pushKf_errlog (e : KeyEvent) (s : State) : (pushKf e s).errlog = if s.kf.full s.params.nK then s.errlog ++ [errCode .keyOverflow] else s.errlog := by unfold pushKf; split <;> rfl
@[simp] theorem pushKf_resp (e : KeyEvent) (s : State) : (pushKf e s).resp = s.resp := by unfold pushKf; split <;> rfl
@[simp] theorem pushKf_events (e : KeyEvent) (s : State) : (pushKf e s).events = s.events := by unfold pushKf; split <;> rfl
@[simp] theorem pushKf_eventPos (e : KeyEvent) (s : State) : (pushKf e s).eventPos = s.eventPos := by unfold pushKf; split <;> rfl

/-! ### `startSeq` -/

@[simp] theorem startSeq_params (b0 : Byte) (b1 : Option Byte) (w : Bool) (r : Option Report) (s : State) : (startSeq b0 b1 w r s).params = s.params := rfl
@[simp] theorem startSeq_leState (b0 : Byte) (b1 : Option Byte) (w : Bool) (r : Option Report) (s : State) : (startSeq b0 b1 w r s).leState = s.leState := rfl
@[simp] theorem startSeq_current (b0 : Byte) (b1 : Option Byte) (w : Bool) (r : Option Report) (s : State) : (startSeq b0 b1 w r s).current = s.current := rfl
@[simp] theorem startSeq_parity (b0 : Byte) (b1 : Option Byte) (w : Bool) (r : Option Report) (s : State) : (startSeq b0 b1 w r s).parity = s.parity := rfl
@[simp] theorem startSeq_txbuf (b0 : Byte) (b1 : Option Byte) (w : Bool) (r : Option Report) (s : State) : (startSeq b0 b1 w r s).txbuf = s.txbuf := rfl
@[simp] theorem startSeq_rts (b0 : Byte) (b1 : Option Byte) (w : Bool) (r : Option Report) (s : State) : (startSeq b0 b1 w r s).rts = s.rts := rfl
@[simp] theorem startSeq_attached (b0 : Byte) (b1 : Option Byte) (w : Bool) (r : Option Report) (s : State) : (startSeq b0 b1 w r s).attached = s.attached := rfl
@[simp] theorem startSeq_clkDriveLow (b0 : Byte) (b1 : Option Byte) (w : Bool) (r : Option Report) (s : State) : (startSeq b0 b1 w r s).clkDriveLow = s.clkDriveLow := rfl
@[simp] theorem startSeq_dataDriveLow (b0 : Byte) (b1 : Option Byte) (w : Bool) (r : Option Report) (s : State) : (startSeq b0 b1 w r s).dataDriveLow = s.dataDriveLow := rfl
@[simp] theorem startSeq_pulseCount (b0 : Byte) (b1 : Option Byte) (w : Bool) (r : Option Report) (s : State) : (startSeq b0 b1 w r s).pulseCount = s.pulseCount := rfl
@[simp] theorem startSeq_bf (b0 : Byte) (b1 : Option Byte) (w : Bool) (r : Option Report) (s : State) : (startSeq b0 b1 w r s).bf = s.bf := rfl
@[simp] theorem startSeq_dstate (b0 : Byte) (b1 : Option Byte) (w : Bool) (r : Option Report) (s : State) : (startSeq b0 b1 w r s).dstate = s.dstate := rfl
@[simp] theorem startSeq_kf (b0 : Byte) (b1 : Option Byte) (w : Bool) (r : Option Report) (s : State) : (startSeq b0 b1 w r s).kf = s.kf := rfl
@[simp] theorem startSeq_bm (b0 : Byte) (b1 : Option Byte) (w : Bool) (r : Option Report) (s : State) : (startSeq b0 b1 w r s).bm = s.bm := rfl
@[simp] theorem startSeq_leds (b0 : Byte) (b1 : Option Byte) (w : Bool) (r : Option Report) (s : State) : (startSeq b0 b1 w r s).leds = s.leds := rfl
@[simp] theorem startSeq_hbCount (b0 : Byte) (b1 : Option Byte) (w : Bool) (r : Option Report) (s : State) : (startSeq b0 b1 w r s).hbCount = s.hbCount := rfl
@[simp] theorem startSeq_fgPhase (b0 : Byte) (b1 : Option Byte) (w : Bool) (r : Option Report) (s : State) : (startSeq b0 b1 w r s).fgPhase = s.fgPhase := rfl
@[simp] theorem startSeq_txqLen (b0 : Byte) (b1 : Option Byte) (w : Bool) (r : Option Report) (s : State) : (startSeq b0 b1 w r s).txqLen = if b1.isSome then 2 else 1 := rfl
@[simp] theorem startSeq_txq0 (b0 : Byte) (b1 : Option Byte) (w : Bool) (r : Option Report) (s : State) : (startSeq b0 b1 w r s).txq0 = b0 := rfl
@[simp] theorem startSeq_txq1 (b0 : Byte) (b1 : Option Byte) (w : Bool) (r : Option Report) (s : State) : (startSeq b0 b1 w r s).txq1 = b1.getD s.txq1 := rfl
@[simp] theorem startSeq_fgWait (b0 : Byte) (b1 : Option Byte) (w : Bool) (r : Option Report) (s : State) : (startSeq b0 b1 w r s).fgWait = w := rfl
@[simp] theorem startSeq_pendValid (b0 : Byte) (b1 : Option Byte) (w : Bool) (r : Option Report) (s : State) : (startSeq b0 b1 w r s).pendValid = r.isSome := rfl
@[simp] theorem startSeq_pendRpt (b0 : Byte) (b1 : Option Byte) (w : Bool) (r : Option Report) (s : State) : (startSeq b0 b1 w r s).pendRpt = r.getD s.pendRpt := rfl
@[simp] theorem startSeq_errlog (b0 : Byte) (b1 : Option Byte) (w : Bool) (r : Option Report) (s : State) : (startSeq b0 b1 w r s).errlog = s.errlog := rfl
@[simp] theorem startSeq_resp (b0 : Byte) (b1 : Option Byte) (w : Bool) (r : Option Report) (s : State) : (startSeq b0 b1 w r s).resp = s.resp := rfl
@[simp] theorem startSeq_events (b0 : Byte) (b1 : Option Byte) (w : Bool) (r : Option Report) (s : State) : (startSeq b0 b1 w r s).events = s.events := rfl
@[simp] theorem startSeq_eventPos (b0 : Byte) (b1 : Option Byte) (w : Bool) (r : Option Report) (s : State) : (startSeq b0 b1 w r s).eventPos = s.eventPos := rfl

/-! ### `fgFinish` -/

@[simp] theorem fgFinish_params (s : State) : (fgFinish s).params = s.params := by unfold fgFinish; split <;> simp_all
@[simp] theorem fgFinish_leState (s : State) : (fgFinish s).leState = s.leState := by unfold fgFinish; split <;> simp_all
@[simp] theorem fgFinish_current (s : State) : (fgFinish s).current = s.current := by unfold fgFinish; split <;> simp_all
@[simp] theorem fgFinish_parity (s : State) : (fgFinish s).parity = s.parity := by unfold fgFinish; split <;> simp_all
@[simp] theorem fgFinish_txbuf (s : State) : (fgFinish s).txbuf = s.txbuf := by unfold fgFinish; split <;> simp_all
@[simp] theorem fgFinish_rts (s : State) : (fgFinish s).rts = s.rts := by unfold fgFinish; split <;> simp_all
@[simp] theorem fgFinish_attached (s : State) : (fgFinish s).attached = s.attached := by unfold fgFinish; split <;> simp_all
@[simp] theorem fgFinish_clkDriveLow (s : State) : (fgFinish s).clkDriveLow = s.clkDriveLow := by unfold fgFinish; split <;> simp_all
@[simp] theorem fgFinish_dataDriveLow (s : State) : (fgFinish s).dataDriveLow = s.dataDriveLow := by unfold fgFinish; split <;> simp_all
@[simp] theorem fgFinish_pulseCount (s : State) : (fgFinish s).pulseCount = s.pulseCount := by unfold fgFinish; split <;> simp_all
@[simp] theorem fgFinish_bf (s : State) : (fgFinish s).bf = s.bf := by unfold fgFinish; split <;> simp_all
@[simp] theorem fgFinish_dstate (s : State) : (fgFinish s).dstate = s.dstate := by unfold fgFinish; split <;> simp_all
@[simp] theorem fgFinish_kf (s : State) : (fgFinish s).kf = s.kf := by unfold fgFinish; split <;> simp_all
@[simp] theorem fgFinish_bm (s : State) : (fgFinish s).bm = s.bm := by unfold fgFinish; split <;> simp_all
@[simp] theorem fgFinish_leds (s : State) : (fgFinish s).leds = s.leds := by unfold fgFinish; split <;> simp_all
@[simp] theorem fgFinish_hbCount (s : State) : (fgFinish s).hbCount = s.hbCount := by unfold fgFinish; split <;> simp_all
@[simp] theorem fgFinish_fgPhase (s : State) : (fgFinish s).fgPhase = s.fgPhase := by unfold fgFinish; split <;> simp_all
@[simp] theorem fgFinish_txqLen (s : State) : (fgFinish s).txqLen = s.txqLen := by unfold fgFinish; split <;> simp_all
@[simp] theorem fgFinish_txq0 (s : State) : (fgFinish s).txq0 = s.txq0 := by unfold fgFinish; split <;> simp_all
@[simp] theorem fgFinish_txq1 (s : State) : (fgFinish s).txq1 = s.txq1 := by unfold fgFinish; split <;> simp_all
@[simp] theorem fgFinish_fgWait (s : State) : (fgFinish s).fgWait = s.fgWait := by unfold fgFinish; split <;> simp_all
@[simp] theorem fgFinish_pendValid (s : State) : (fgFinish s).pendValid = false := by unfold fgFinish; split <;> simp_all
@[simp] theorem fgFinish_pendRpt (s : State) : (fgFinish s).pendRpt = s.pendRpt := by unfold fgFinish; split <;> simp_all
@[simp] theorem fgFinish_errlog (s : State) : (fgFinish s).errlog = s.errlog := by unfold fgFinish; split <;> simp_all
@[simp] theorem fgFinish_resp (s : State) : (fgFinish s).resp = s.resp ++ [if s.pendValid then .report s.pendRpt else .done] := by unfold fgFinish; split <;> simp_all
@[simp] theorem fgFinish_events (s : State) : (fgFinish s).events = s.events := by unfold fgFinish; split <;> simp_all
@[simp] theorem fgFinish_eventPos (s : State) : (fgFinish s).eventPos = s.eventPos := by unfold fgFinish; split <;> simp_all

/-! ### `txRts` -/

@[simp] theorem txRts_params (b : Byte) (s : State) : (txRts b s).params = s.params := rfl
@[simp] theorem txRts_leState (b : Byte) (s : State) : (txRts b s).leState = s.leState := rfl
@[simp] theorem txRts_current (b : Byte) (s : State) : (txRts b s).current = s.current := rfl
@[simp] theorem txRts_parity (b : Byte) (s : State) : (txRts b s).parity = s.parity := rfl
@[simp] theorem txRts_txbuf (b : Byte) (s : State) : (txRts b s).txbuf = b := rfl
@[simp] theorem txRts_rts (b : Byte) (s : State) : (txRts b s).rts = true := rfl
@[simp] theorem txRts_attached (b : Byte) (s : State) : (txRts b s).attached = false := rfl
@[simp] theorem txRts_clkDriveLow (b : Byte) (s : State) : (txRts b s).clkDriveLow = true := rfl
@[simp] theorem txRts_dataDriveLow (b : Byte) (s : State) : (txRts b s).dataDriveLow = true := rfl
@[simp] theorem txRts_pulseCount (b : Byte) (s : State) : (txRts b s).pulseCount = s.pulseCount := rfl
@[simp] theorem txRts_bf (b : Byte) (s : State) : (txRts b s).bf = s.bf := rfl
@[simp] theorem txRts_dstate (b : Byte) (s : State) : (txRts b s).dstate = s.dstate := rfl
@[simp] theorem txRts_kf (b : Byte) (s : State) : (txRts b s).kf = s.kf := rfl
@[simp] theorem txRts_bm (b : Byte) (s : State) : (txRts b s).bm = s.bm := rfl
@[simp] theorem txRts_leds (b : Byte) (s : State) : (txRts b s).leds = s.leds := rfl
@[simp] theorem txRts_hbCount (b : Byte) (s : State) : (txRts b s).hbCount = s.hbCount := rfl
@[simp] theorem txRts_fgPhase (b : Byte) (s : State) : (txRts b s).fgPhase = s.fgPhase := rfl
@[simp] theorem txRts_txqLen (b : Byte) (s : State) : (txRts b s).txqLen = s.txqLen := rfl
@[simp] theorem txRts_txq0 (b : Byte) (s : State) : (txRts b s).txq0 = s.txq0 := rfl
@[simp] theorem txRts_txq1 (b : Byte) (s : State) : (txRts b s).txq1 = s.txq1 := rfl
@[simp] theorem txRts_fgWait (b : Byte) (s : State) : (txRts b s).fgWait = s.fgWait := rfl
@[simp] theorem txRts_pendValid (b : Byte) (s : State) : (txRts b s).pendValid = s.pendValid := rfl
@[simp] theorem txRts_pendRpt (b : Byte) (s : State) : (txRts b s).pendRpt = s.pendRpt := rfl
@[simp] theorem txRts_errlog (b : Byte) (s : State) : (txRts b s).errlog = s.errlog := rfl
@[simp] theorem txRts_resp (b : Byte) (s : State) : (txRts b s).resp = s.resp := rfl
@[simp] theorem txRts_events (b : Byte) (s : State) : (txRts b s).events = s.events := rfl
@[simp] theorem txRts_eventPos (b : Byte) (s : State) : (txRts b s).eventPos = s.eventPos := rfl

/-! ### `txPrime` -/

@[simp] theorem txPrime_params (s : State) : (txPrime s).params = s.params := rfl
@[simp] theorem txPrime_leState (s : State) : (txPrime s).leState = leWaitSendData 0 := rfl
@[simp] theorem txPrime_current (s : State) : (txPrime s).current = s.txbuf := rfl
@[simp] theorem txPrime_parity (s : State) : (txPrime s).parity = true := rfl
@[simp] theorem txPrime_txbuf (s : State) : (txPrime s).txbuf = s.txbuf := rfl
@[simp] theorem txPrime_rts (s : State) : (txPrime s).rts = false := rfl
@[simp] theorem txPrime_attached (s : State) : (txPrime s).attached = true := rfl
@[simp] theorem txPrime_clkDriveLow (s : State) : (txPrime s).clkDriveLow = false := rfl
@[simp] theorem txPrime_dataDriveLow (s : State) : (txPrime s).dataDriveLow = s.dataDriveLow := rfl
@[simp] theorem txPrime_pulseCount (s : State) : (txPrime s).pulseCount = s.pulseCount := rfl
@[simp] theorem txPrime_bf (s : State) : (txPrime s).bf = s.bf := rfl
@[simp] theorem txPrime_dstate (s : State) : (txPrime s).dstate = s.dstate := rfl
@[simp] theorem txPrime_kf (s : State) : (txPrime s).kf = s.kf := rfl
@[simp] theorem txPrime_bm (s : State) : (txPrime s).bm = s.bm := rfl
@[simp] theorem txPrime_leds (s : State) : (txPrime s).leds = s.leds := rfl
@[simp] theorem txPrime_hbCount (s : State) : (txPrime s).hbCount = s.hbCount := rfl
@[simp] theorem txPrime_fgPhase (s : State) : (txPrime s).fgPhase = s.fgPhase := rfl
@[simp] theorem txPrime_txqLen (s : State) : (txPrime s).txqLen = s.txqLen := rfl
@[simp] theorem txPrime_txq0 (s : State) : (txPrime s).txq0 = s.txq0 := rfl
@[simp] theorem txPrime_txq1 (s : State) : (txPrime s).txq1 = s.txq1 := rfl
@[simp] theorem txPrime_fgWait (s : State) : (txPrime s).fgWait = s.fgWait := rfl
@[simp] theorem txPrime_pendValid (s : State) : (txPrime s).pendValid = s.pendValid := rfl
@[simp] theorem txPrime_pendRpt (s : State) : (txPrime s).pendRpt = s.pendRpt := rfl
@[simp] theorem txPrime_errlog (s : State) : (txPrime s).errlog = s.errlog := rfl
@[simp] theorem txPrime_resp (s : State) : (txPrime s).resp = s.resp := rfl
@[simp] theorem txPrime_events (s : State) : (txPrime s).events = s.events := rfl
@[simp] theorem txPrime_eventPos (s : State) : (txPrime s).eventPos = s.eventPos := rfl

end Sys2Proof.Machine
end

