-- ==== Sys2Proof/Laws/Ops.lean ====
section
/-! SUPPORT. What each shared operation can do, said once: the four ways a step of an agent is taken, the event push, the
offer of the schedule and the run. Proofs cite these and do not unfold the operations. -/

namespace Sys2Proof.Machine


/-! ### The enabling conditions -/

/-- `fg_busy = 0` is: idle with an empty queue (R19). -/
theorem fgBusy_eq_false_iff (s : State) : s.fgBusy = false ↔ s.PortFree := by
  simp [State.fgBusy, State.PortFree]

theorem fgBusy_eq_true_iff (s : State) : s.fgBusy = true ↔ s.fgPhase ≠ fgIdle ∨ s.txqLen ≠ 0 := by
  simp [State.fgBusy]

theorem rtsEnabled_iff (s : State) : s.rtsEnabled = true ↔ s.fgPhase = fgIdle ∧ s.txqLen ≠ 0 := by
  simp [State.rtsEnabled]

theorem primeEnabled_iff (s : State) : s.primeEnabled = true ↔ s.fgPhase = fgInRts := by
  simp [State.primeEnabled]

theorem doneEnabled_iff (s : State) :
    s.doneEnabled = true ↔ s.fgPhase = fgInWait ∧ isSendState s.leState = false := by
  simp [State.doneEnabled]

/-! ### The four ways a step is taken -/

/-- The state an attached edge's operation starts from (R71). -/
def countPulse (s : State) : State := { s with pulseCount := (s.pulseCount + 1) % 2 ^ s.params.pulseW }

theorem edgeStep_attached {f : State → State} {s : State} (h : s.attached = true) :
    edgeStep f s = .next (f (countPulse s)) := by
  simp [edgeStep, h, countPulse]

theorem edgeStep_detached {f : State → State} {s : State} (h : s.attached = false) : edgeStep f s = .next s := by
  simp [edgeStep, h]

theorem edgeStep_next {f : State → State} {s t : State} (h : edgeStep f s = .next t) :
    (s.attached = true ∧ t = f (countPulse s)) ∨ (s.attached = false ∧ t = s) := by
  cases ha : s.attached
  · rw [edgeStep_detached ha] at h; exact .inr ⟨rfl, (Host.Outcome.next.inj h).symm⟩
  · rw [edgeStep_attached ha] at h; exact .inl ⟨rfl, (Host.Outcome.next.inj h).symm⟩

theorem decByteStep_enabled {f : State → State} {s : State} (h : 0 < s.bfCount) :
    decByteStep f s = .next (f (popBf s)) := by
  simp [decByteStep, h]

theorem decByteStep_empty {f : State → State} {s : State} (h : s.bfCount = 0) : decByteStep f s = .next s := by
  simp [decByteStep, h]

theorem decByteStep_next {f : State → State} {s t : State} (h : decByteStep f s = .next t) :
    (0 < s.bfCount ∧ t = f (popBf s)) ∨ (s.bfCount = 0 ∧ t = s) := by
  rcases Nat.eq_zero_or_pos s.bfCount with h0 | h0
  · rw [decByteStep_empty h0] at h; exact .inr ⟨h0, (Host.Outcome.next.inj h).symm⟩
  · rw [decByteStep_enabled h0] at h; exact .inl ⟨h0, (Host.Outcome.next.inj h).symm⟩

theorem hostStep_free {f : State → State} {s : State} (h : s.PortFree) : hostStep f s = .next (f s) := by
  have hb := (fgBusy_eq_false_iff s).2 h
  simp [hostStep, hb, h.1]

theorem hostStep_busy {f : State → State} {s : State} (hp : s.fgPhase ≠ fgReserved) (hb : s.fgBusy = true) :
    hostStep f s = .next s := by
  simp [hostStep, hp, hb]

theorem hostStep_reserved {f : State → State} {s : State} (h : s.fgPhase = fgReserved) :
    hostStep f s = .refused .reservedFgPhase := by
  simp [hostStep, h]

theorem hostStep_next {f : State → State} {s t : State} (h : hostStep f s = .next t) :
    (s.PortFree ∧ t = f s) ∨ (s.fgBusy = true ∧ t = s) := by
  by_cases hp : s.fgPhase = fgReserved
  · rw [hostStep_reserved hp] at h; cases h
  · cases hb : s.fgBusy
    · have hf := (fgBusy_eq_false_iff s).1 hb
      rw [hostStep_free hf] at h; exact .inl ⟨hf, (Host.Outcome.next.inj h).symm⟩
    · rw [hostStep_busy hp hb] at h; exact .inr ⟨rfl, (Host.Outcome.next.inj h).symm⟩

theorem fgStep_enabled {f : State → State} {s : State} (h : s.fgPhase ≠ fgReserved) :
    fgStep true f s = .next (f s) := by
  simp [fgStep, h]

theorem fgStep_disabled {f : State → State} {s : State} (h : s.fgPhase ≠ fgReserved) :
    fgStep false f s = .next s := by
  simp [fgStep, h]

theorem fgStep_reserved {b : Bool} {f : State → State} {s : State} (h : s.fgPhase = fgReserved) :
    fgStep b f s = .refused .reservedFgPhase := by
  simp [fgStep, h]

theorem fgStep_next {b : Bool} {f : State → State} {s t : State} (h : fgStep b f s = .next t) :
    s.fgPhase ≠ fgReserved ∧ ((b = true ∧ t = f s) ∨ (b = false ∧ t = s)) := by
  by_cases hp : s.fgPhase = fgReserved
  · rw [fgStep_reserved hp] at h; cases h
  · refine ⟨hp, ?_⟩
    cases b
    · rw [fgStep_disabled hp] at h; exact .inr ⟨rfl, (Host.Outcome.next.inj h).symm⟩
    · rw [fgStep_enabled hp] at h; exact .inl ⟨rfl, (Host.Outcome.next.inj h).symm⟩

/-! ### The error codes and the tables -/

/-- The codes recorded are 0x1 to 0x8 (R67). -/
theorem errCode_range (e : ErrCode) : 1 ≤ (errCode e).toNat ∧ (errCode e).toNat ≤ 8 := by cases e <;> decide

/-- The first entry a table lists at an index is what it holds there (R43). -/
theorem tableEntry_listed {dflt b k : Byte} {before after : Table} (h : ∀ e ∈ before, e.1 ≠ b) :
    tableEntry dflt (before ++ (b, k) :: after) b = k := by
  induction before with
  | nil => simp [tableEntry]
  | cons e before ih =>
    have hb : b ≠ e.1 := (h e (by simp)).symm
    simp only [List.cons_append, tableEntry, if_neg hb]
    exact ih fun x hx => h x (by simp [hx])

/-- An index a table does not list holds the default (log entry 2). -/
theorem tableEntry_unlisted {dflt b : Byte} {t : Table} (h : ∀ e ∈ t, e.1 ≠ b) : tableEntry dflt t b = dflt := by
  induction t with
  | nil => rfl
  | cons e t ih =>
    have hb : b ≠ e.1 := (h e (by simp)).symm
    simp only [tableEntry, if_neg hb]
    exact ih fun x hx => h x (by simp [hx])

/-! ### The event push -/

/-- What a push into KF does (R87). -/
theorem pushKf_eq (e : KeyEvent) (s : State) :
    pushKf e s = if s.kf.full s.params.nK then { s with errlog := s.errlog ++ [errCode .keyOverflow] }
      else { s with kf := s.kf.put s.params.nK e } := rfl

/-- What a push into BF does (R87). -/
theorem pushBf_eq (v : Byte) (s : State) :
    pushBf v s = if s.bf.full s.params.nB then { s with errlog := s.errlog ++ [errCode .byteOverflow] }
      else { s with bf := s.bf.put s.params.nB v } := rfl

/-- Everything `emit_event` can do (R95): nothing but the idle state, one event stored, or one error. -/
theorem emitEvent_cases (x : Option Byte) (rel : Bool) (s : State) :
    emitEvent x rel s = { s with dstate := dWaitStart } ∨
    (∃ e, s.kf.full s.params.nK = false ∧
      emitEvent x rel s = { s with dstate := dWaitStart, kf := s.kf.put s.params.nK e }) ∨
    (s.kf.full s.params.nK = true ∧
      emitEvent x rel s = { s with dstate := dWaitStart, errlog := s.errlog ++ [errCode .keyOverflow] }) := by
  cases x with
  | some k =>
    cases hf : s.kf.full s.params.nK
    · exact .inr (.inl ⟨_, rfl, by simp [emitEvent, pushEvent, pushKf, hf]; rfl⟩)
    · exact .inr (.inr ⟨rfl, by simp [emitEvent, pushEvent, pushKf, hf, raiseErr]⟩)
  | none =>
    cases he : s.params.emitUnmapped
    · exact .inl (by simp [emitEvent, pushEvent, he])
    · cases hf : s.kf.full s.params.nK
      · exact .inr (.inl ⟨_, rfl, by simp [emitEvent, pushEvent, he, pushKf, hf]; rfl⟩)
      · exact .inr (.inr ⟨rfl, by simp [emitEvent, pushEvent, he, pushKf, hf, raiseErr]⟩)

/-- Everything the end of a byte can do to the host port (R128 to R130): nothing where a byte is left, else one response,
the latched report or `Done`. -/
theorem finishIfLast_eq (s : State) : finishIfLast s = { s with
    pendValid := if s.txqLen = 0 then false else s.pendValid
    resp := if s.txqLen = 0 then s.resp ++ [if s.pendValid then .report s.pendRpt else .done] else s.resp } := by
  by_cases h0 : s.txqLen = 0
  · cases hp : s.pendValid
    · cases s; subst hp; simp only at h0; simp [finishIfLast, fgFinish, emitResp, h0]
    · simp [finishIfLast, fgFinish, emitResp, h0, hp]
  · rw [finishIfLast, if_neg h0, if_neg h0, if_neg h0]

/-! ### Bits -/

/-- Shifting a bit in is the right shift with that bit into bit 7 (R74). -/
theorem shiftIn_eq (d : Bool) (v : Byte) : shiftIn d v = (v >>> 1) ||| (if d then 0x80 else 0x00) := by
  revert d v; decide

theorem nextRxData_eq (n : BitVec 3) :
    nextRxData n = if n.toNat < 7 then leWaitData (n + 1) else leWaitParity := by
  revert n; decide

theorem nextTxData_eq (n : BitVec 3) :
    nextTxData n = if n.toNat < 7 then leWaitSendData (n + 1) else leWaitSendParity := by
  revert n; decide

/-! ### Runs -/

theorem nextEvent_cons {s : State} {e : Event} {rest : List Event} (h : s.events = e :: rest) :
    s.nextEvent = (e, { s with events := rest }) := by
  simp [State.nextEvent, h]

theorem step_cons {s : State} {e : Event} {rest : List Event} (h : s.events = e :: rest) :
    step s = exec (fetch e { s with events := rest }) { s with events := rest } := by
  simp [step, nextEvent_cons h]

@[simp] theorem run_zero (s : State) : run 0 s = .next s := rfl

theorem run_succ (k : Nat) (s : State) :
    run (k + 1) s = match step s with
      | .next t => run k t
      | .fault r => .fault r
      | .refused r => .refused r := rfl

theorem run_succ_next {k : Nat} {s t : State} (h : step s = .next t) : run (k + 1) s = run k t := by
  rw [run_succ, h]

/-- One step of the host's run. -/
theorem core_run_next {M : Host.Core} {k : Nat} {s t : M.State} (h : M.step s = .next t) :
    M.run (k + 1) s = M.run k t := by
  simp [Host.Core.run, h]

theorem core_run_refused {M : Host.Core} {k : Nat} {s : M.State} {r : M.Refusal} (h : M.step s = .refused r) :
    M.run (k + 1) s = .refused r := by
  simp [Host.Core.run, h]

/-- The runs claims speak of are the host's runs of the core. -/
theorem run_eq_core (k : Nat) (s : State) : run k s = Host.Core.run Sys2Proof.core k s := by
  induction k generalizing s with
  | zero => rfl
  | succ k ih =>
    cases h : step s with
    | next t => exact (run_succ_next h).trans ((ih t).trans (core_run_next (M := Sys2Proof.core) h).symm)
    | fault r => cases r
    | refused r =>
      exact (show run (k + 1) s = .refused r by rw [run_succ, h]).trans
        (core_run_refused (M := Sys2Proof.core) h).symm

/-- A run of `j + k` steps is `k` steps after `j`. -/
theorem run_add {j k : Nat} {s t : State} (h : run j s = .next t) : run (j + k) s = run k t := by
  induction j generalizing s with
  | zero => rw [run_zero] at h; cases h; rw [Nat.zero_add]
  | succ j ih =>
    rw [Nat.succ_add]
    cases hs : step s with
    | next u => rw [run_succ_next hs] at h; rw [run_succ_next hs]; exact ih h
    | fault r => cases r
    | refused r => rw [run_succ, hs] at h; cases h

end Sys2Proof.Machine
end

