-- ==== Sys2Proof/Laws/PerInstr.lean ====
section
/-! SUPPORT. Statements about each instruction as syntax, one lemma per constructor. `RowMatch`: the key the encoder
writes for a well-formed instruction matches that instruction's row of spec/opcode_table.json. -/

namespace Sys2Proof.Laws.RowMatch

/-- The (match, mask) pair of the instruction's row; none for a row without a word. -/
def row : Instr → Option (Nat × Nat)
  | .rxStart _ => some (0x00, 0x3E)
  | .rxData _ _ => some (0x10, 0x30)
  | .rxParity _ => some (0x02, 0x3E)
  | .rxStop _ => some (0x04, 0x3E)
  | .txData _ _ => some (0x30, 0x30)
  | .txParity _ => some (0x08, 0x3E)
  | .txStop _ => some (0x0A, 0x3E)
  | .txAck _ => some (0x0C, 0x3E)
  | .reservedLe00011 _ => some (0x06, 0x3E)
  | .reservedLe00111 _ => some (0x0E, 0x3E)
  | .reservedLe10 _ _ => some (0x20, 0x30)
  | .edgeDetached _ => none
  | .dExtPrefix => some (0x0E0, 0x7FF)
  | .dBrkPrefix => some (0x0F0, 0x7FF)
  | .dPauseLead => some (0x0E1, 0x7FF)
  | .dMake _ => some (0x000, 0x700)
  | .dExtBrkPrefix => some (0x1F0, 0x7FF)
  | .dPrefixErrExt => some (0x1E0, 0x7FF)
  | .dExtMake _ => some (0x100, 0x700)
  | .dPrefixErrBrk _ _ => some (0x2E0, 0x6EF)
  | .dBreak _ => some (0x200, 0x700)
  | .dExtBreak _ => some (0x300, 0x700)
  | .dPauseFiller14 _ => some (0x414, 0x6FF)
  | .dPauseFillerE1 _ => some (0x4E1, 0x6FF)
  | .dPauseFillerF0 _ => some (0x4F0, 0x6FF)
  | .dPause77A => some (0x477, 0x7FF)
  | .dPause77B => some (0x577, 0x7FF)
  | .dPauseErr _ _ => some (0x400, 0x600)
  | .reservedDstate _ _ => some (0x600, 0x600)
  | .avail _ _ => some (0x00000, 0x70000)
  | .readReport _ _ => some (0x10000, 0x70000)
  | .write _ _ => some (0x20000, 0x70000)
  | .writeWait _ _ => some (0x30000, 0x70000)
  | .resetKbd _ _ => some (0x40000, 0x70000)
  | .setTypematic _ _ => some (0x50000, 0x70000)
  | .setLeds _ _ => some (0x60000, 0x70000)
  | .reservedOp111 _ _ => some (0x70000, 0x70000)
  | .decStep => none
  | .fgRts => none
  | .fgPrime => none
  | .fgDone => none
  | .tick => none
  | .kbdCmdReset => some (0xFF, 0xFF)
  | .kbdCmdTypematic => some (0xF3, 0xFF)
  | .kbdCmdSetLeds => some (0xED, 0xFF)

/-- The word of a key, numbered as the table numbers it. -/
def wordOf : Key → Option Nat
  | .edge w => some w.toNat
  | .decByte w => some w.toNat
  | .hostReq w => some w.toNat
  | .kbdCmd b => some b.toNat
  | .edgeDetached _ | .decStep | .fgRts | .fgPrime | .fgDone | .tick => none

/-- The instruction's word has exactly its row's fixed bits. -/
def Statement (i : Instr) : Prop :=
  (wordOf (encode i)).map (fun w => (row i).map (fun r => w &&& r.2)) = (row i).map (fun r => some r.1)

/-- The op bits of a host request, under the mask of its row (R61). -/
theorem host_word (op : BitVec 3) (a0 a1 : Byte) : (hostKey op a0 a1).toNat &&& 0x70000 = op.toNat <<< 16 := by
  have h : hostKey op a0 a1 &&& 0x70000#19 = op ++ 0#16 := by
    apply BitVec.eq_of_getLsbD_eq
    intro i hi
    unfold hostKey
    rw [BitVec.getLsbD_and, BitVec.getLsbD_append, BitVec.getLsbD_append, BitVec.getLsbD_append]
    interval_cases i <;> simp
  have := congrArg BitVec.toNat h
  rw [BitVec.toNat_and, BitVec.toNat_append] at this
  simpa using this

/-- A host request has its row's fixed bits. -/
theorem host_row {i : Instr} {op : BitVec 3} {a0 a1 : Byte} (he : encode i = .hostReq (hostKey op a0 a1))
    (hr : row i = some (op.toNat <<< 16, 0x70000)) : Statement i := by
  unfold Statement
  rw [he, hr]
  simp only [wordOf, Option.map_some, host_word]

theorem rxStart (d : Bool) : Statement (.rxStart d) := by
  unfold Statement; revert d; decide
theorem rxData (n : BitVec 3) (d : Bool) : Statement (.rxData n d) := by
  unfold Statement; revert n d; decide
theorem rxParity (d : Bool) : Statement (.rxParity d) := by
  unfold Statement; revert d; decide
theorem rxStop (d : Bool) : Statement (.rxStop d) := by
  unfold Statement; revert d; decide
theorem txData (n : BitVec 3) (d : Bool) : Statement (.txData n d) := by
  unfold Statement; revert n d; decide
theorem txParity (d : Bool) : Statement (.txParity d) := by
  unfold Statement; revert d; decide
theorem txStop (d : Bool) : Statement (.txStop d) := by
  unfold Statement; revert d; decide
theorem txAck (d : Bool) : Statement (.txAck d) := by
  unfold Statement; revert d; decide
theorem reservedLe00011 (d : Bool) : Statement (.reservedLe00011 d) := by
  unfold Statement; revert d; decide
theorem reservedLe00111 (d : Bool) : Statement (.reservedLe00111 d) := by
  unfold Statement; revert d; decide
theorem reservedLe10 (n : BitVec 3) (d : Bool) : Statement (.reservedLe10 n d) := by
  unfold Statement; revert n d; decide
theorem edgeDetached (d : Bool) : Statement (.edgeDetached d) := rfl
theorem dExtPrefix : Statement .dExtPrefix := by unfold Statement; decide
theorem dBrkPrefix : Statement .dBrkPrefix := by unfold Statement; decide
theorem dPauseLead : Statement .dPauseLead := by unfold Statement; decide
theorem dMake (b : Byte) : Statement (.dMake b) := by
  unfold Statement; revert b; decide
theorem dExtBrkPrefix : Statement .dExtBrkPrefix := by unfold Statement; decide
theorem dPrefixErrExt : Statement .dPrefixErrExt := by unfold Statement; decide
theorem dExtMake (b : Byte) : Statement (.dExtMake b) := by
  unfold Statement; revert b; decide
theorem dPrefixErrBrk (ext p : Bool) : Statement (.dPrefixErrBrk ext p) := by
  unfold Statement; revert ext p; decide
theorem dBreak (b : Byte) : Statement (.dBreak b) := by
  unfold Statement; revert b; decide
theorem dExtBreak (b : Byte) : Statement (.dExtBreak b) := by
  unfold Statement; revert b; decide
theorem dPauseFiller14 (second : Bool) : Statement (.dPauseFiller14 second) := by
  unfold Statement; revert second; decide
theorem dPauseFillerE1 (second : Bool) : Statement (.dPauseFillerE1 second) := by
  unfold Statement; revert second; decide
theorem dPauseFillerF0 (second : Bool) : Statement (.dPauseFillerF0 second) := by
  unfold Statement; revert second; decide
theorem dPause77A : Statement .dPause77A := by unfold Statement; decide
theorem dPause77B : Statement .dPause77B := by unfold Statement; decide
theorem dPauseErr (second : Bool) (b : Byte) : Statement (.dPauseErr second b) := by
  unfold Statement; revert second b; decide
theorem reservedDstate (x : Bool) (b : Byte) : Statement (.reservedDstate x b) := by
  unfold Statement; revert x b; decide
theorem avail (a0 a1 : Byte) : Statement (.avail a0 a1) := host_row rfl rfl
theorem readReport (a0 a1 : Byte) : Statement (.readReport a0 a1) := host_row rfl rfl
theorem write (a0 a1 : Byte) : Statement (.write a0 a1) := host_row rfl rfl
theorem writeWait (a0 a1 : Byte) : Statement (.writeWait a0 a1) := host_row rfl rfl
theorem resetKbd (a0 a1 : Byte) : Statement (.resetKbd a0 a1) := host_row rfl rfl
theorem setTypematic (a0 a1 : Byte) : Statement (.setTypematic a0 a1) := host_row rfl rfl
theorem setLeds (a0 a1 : Byte) : Statement (.setLeds a0 a1) := host_row rfl rfl
theorem reservedOp111 (a0 a1 : Byte) : Statement (.reservedOp111 a0 a1) := host_row rfl rfl
theorem decStep : Statement .decStep := rfl
theorem fgRts : Statement .fgRts := rfl
theorem fgPrime : Statement .fgPrime := rfl
theorem fgDone : Statement .fgDone := rfl
theorem tick : Statement .tick := rfl
theorem kbdCmdReset : Statement .kbdCmdReset := by unfold Statement; decide
theorem kbdCmdTypematic : Statement .kbdCmdTypematic := by unfold Statement; decide
theorem kbdCmdSetLeds : Statement .kbdCmdSetLeds := by unfold Statement; decide

end Sys2Proof.Laws.RowMatch
end

