-- ==== Sys2Proof/Laws/Rings.lean ====
section
/-! SUPPORT. The rings: what the pointer arithmetic comes to on legal pointers (spec/41_fifos.md R86, R90), and that
every ring operation keeps a legal ring legal. -/

namespace Sys2Proof.Machine

/-- `adv` without the modulus. -/
theorem adv_eq {n p : Nat} (h : p < n) : adv n p = if p + 1 < n then p + 1 else 0 := by
  unfold adv
  split
  · exact Nat.mod_eq_of_lt ‹_›
  · rw [show p + 1 = n by omega, Nat.mod_self]

/-- `count` without the modulus. -/
theorem count_eq {w n : Nat} {r : Machine.Ring w} (h : Ring.Legal n r) :
    r.count n = if r.tail ≤ r.head then r.head - r.tail else r.head + n - r.tail := by
  have := h.head_lt
  have := h.tail_lt
  unfold Ring.count
  split
  · rw [show r.head + n - r.tail = (r.head - r.tail) + n by omega, Nat.add_mod_right,
      Nat.mod_eq_of_lt (by omega)]
  · exact Nat.mod_eq_of_lt (by omega)

/-- A legal ring holds at most N-1 entries. -/
theorem count_lt {w n : Nat} {r : Machine.Ring w} (h : Ring.Legal n r) : r.count n < n :=
  Nat.mod_lt _ (Nat.zero_lt_of_lt h.head_lt)

theorem contents_length {w n : Nat} (r : Machine.Ring w) : (r.contents n).length = r.count n := by
  simp [Ring.contents]

theorem put_slots_length {w n : Nat} (r : Machine.Ring w) (v : BitVec w) :
    (r.put n v).slots.length = r.slots.length := by
  simp [Ring.put]

theorem put_head_lt {w n : Nat} {r : Machine.Ring w} (v : BitVec w) (h : r.head < n) : (r.put n v).head < n :=
  Nat.mod_lt _ (Nat.zero_lt_of_lt h)

theorem drop_tail_lt {w n : Nat} {r : Machine.Ring w} (h : r.tail < n) : (r.drop n).tail < n :=
  Nat.mod_lt _ (Nat.zero_lt_of_lt h)

end Sys2Proof.Machine
end

