-- ==== Sys2Proof/Laws/Step.lean ====
section
/-! SUPPORT. What a step can do, said once: `Effect e s t` lists, agent by agent, every next state `t` a step offered as
`e` can reach from `s`, and `step_effect` says that a step reaches one of them. Invariants and whole-machine rules are
case analyses over `Effect`. -/

namespace Sys2Proof.Machine

/-- The next states of a step, one constructor per way it can go. -/
inductive Effect : Event → State → State → Prop where
  | detached {s : State} {d : Bool} (ha : s.attached = false) : Effect (.edge d) s s
  | rxStart {s : State} (ha : s.attached = true) (hl : s.leState = leWaitStart) :
      Effect (.edge false) s { countPulse s with parity := true, leState := leWaitData 0 }
  | badStart {s : State} (ha : s.attached = true) (hl : s.leState = leWaitStart) :
      Effect (.edge true) s { countPulse s with errlog := s.errlog ++ [errCode .badStart] }
  | rxData {s : State} {d : Bool} {n : BitVec 3} (ha : s.attached = true) (hl : s.leState = leWaitData n) :
      Effect (.edge d) s { countPulse s with
        current := shiftIn d s.current, parity := Bool.xor s.parity d, leState := nextRxData n }
  | rxParity {s : State} (ha : s.attached = true) (hl : s.leState = leWaitParity) :
      Effect (.edge s.parity) s { countPulse s with leState := leWaitStop }
  | badParity {s : State} {d : Bool} (ha : s.attached = true) (hl : s.leState = leWaitParity) (hd : d ≠ s.parity) :
      Effect (.edge d) s { countPulse s with leState := leWaitStart, errlog := s.errlog ++ [errCode .badParity] }
  | rxStop {s : State} (ha : s.attached = true) (hl : s.leState = leWaitStop) (hf : s.bf.full s.params.nB = false) :
      Effect (.edge true) s { countPulse s with leState := leWaitStart, bf := s.bf.put s.params.nB s.current }
  | byteOverflow {s : State} (ha : s.attached = true) (hl : s.leState = leWaitStop)
      (hf : s.bf.full s.params.nB = true) :
      Effect (.edge true) s { countPulse s with leState := leWaitStart, errlog := s.errlog ++ [errCode .byteOverflow] }
  | badStop {s : State} (ha : s.attached = true) (hl : s.leState = leWaitStop) :
      Effect (.edge false) s { countPulse s with leState := leWaitStart, errlog := s.errlog ++ [errCode .badStop] }
  | txData {s : State} {d : Bool} {n : BitVec 3} (ha : s.attached = true) (hl : s.leState = leWaitSendData n) :
      Effect (.edge d) s { countPulse s with
        dataDriveLow := !s.current.getLsbD 0
        parity := Bool.xor s.parity (s.current.getLsbD 0)
        current := shiftIn false s.current
        leState := nextTxData n }
  | txParity {s : State} {d : Bool} (ha : s.attached = true) (hl : s.leState = leWaitSendParity) :
      Effect (.edge d) s { countPulse s with dataDriveLow := !s.parity, leState := leWaitSendStop }
  | txStop {s : State} {d : Bool} (ha : s.attached = true) (hl : s.leState = leWaitSendStop) :
      Effect (.edge d) s { countPulse s with dataDriveLow := false, leState := leWaitSendAck }
  | txAck {s : State} (ha : s.attached = true) (hl : s.leState = leWaitSendAck) :
      Effect (.edge false) s { countPulse s with leState := leWaitStart }
  | invalidAck {s : State} (ha : s.attached = true) (hl : s.leState = leWaitSendAck) :
      Effect (.edge true) s { countPulse s with leState := leWaitStart, errlog := s.errlog ++ [errCode .invalidAck] }
  | decIdle {s : State} (hc : s.bfCount = 0) : Effect .decStep s s
  | decMove {s : State} {ds : BitVec 3} (hc : 0 < s.bfCount) (hd : legalDstate ds = true) :
      Effect .decStep s { popBf s with dstate := ds }
  | decKeep {s : State} (hc : 0 < s.bfCount) : Effect .decStep s (popBf s)
  | decStore {s : State} {e : KeyEvent} (hc : 0 < s.bfCount) (hf : s.kf.full s.params.nK = false) :
      Effect .decStep s { popBf s with dstate := dWaitStart, kf := s.kf.put s.params.nK e }
  | keyOverflow {s : State} (hc : 0 < s.bfCount) (hf : s.kf.full s.params.nK = true) :
      Effect .decStep s { popBf s with dstate := dWaitStart, errlog := s.errlog ++ [errCode .keyOverflow] }
  | decodePrefix {s : State} (hc : 0 < s.bfCount) :
      Effect .decStep s { popBf s with dstate := dWaitStart, errlog := s.errlog ++ [errCode .decodePrefix] }
  | decodePause {s : State} (hc : 0 < s.bfCount) :
      Effect .decStep s { popBf s with dstate := dWaitStart, errlog := s.errlog ++ [errCode .decodePause] }
  | hostWait {s : State} {op : BitVec 3} {a0 a1 : Byte} (hb : s.fgBusy = true) : Effect (.hostOp op a0 a1) s s
  | avail {s : State} {a0 a1 : Byte} {n : Nat} (hp : s.PortFree) :
      Effect (.hostOp 0b000#3 a0 a1) s { s with resp := s.resp ++ [.count n] }
  | readIdle {s : State} {a0 a1 : Byte} (hp : s.PortFree) (hk : s.kfCount = 0) :
      Effect (.hostOp 0b001#3 a0 a1) s { s with
        hbCount := 0, resp := s.resp ++ [.report (formatReport s.params s.bm)] }
  | readAnswer {s : State} {a0 a1 : Byte} {bm bm' : Bitmap} (hp : s.PortFree) (hk : 0 < s.kfCount) :
      Effect (.hostOp 0b001#3 a0 a1) s { popKf s with
        bm := bm', hbCount := 0, resp := s.resp ++ [.report (formatReport s.params bm)] }
  | readLock {s : State} {a0 a1 : Byte} {bm : Bitmap} {leds : LedMask} (hp : s.PortFree) (hk : 0 < s.kfCount) :
      Effect (.hostOp 0b001#3 a0 a1) s
        (startSeq cmdSetLeds (some (ledByte leds)) true (some (formatReport s.params bm))
          { popKf s with bm := bm, leds := leds, hbCount := 0 })
  | hostWrite {s : State} {a0 a1 : Byte} (hp : s.PortFree) :
      Effect (.hostOp 0b010#3 a0 a1) s (startSeq a0 none false none s)
  | hostWriteWait {s : State} {a0 a1 : Byte} (hp : s.PortFree) :
      Effect (.hostOp 0b011#3 a0 a1) s (startSeq a0 none true none s)
  | resetKbd {s : State} {a0 a1 : Byte} (hp : s.PortFree) :
      Effect (.hostOp 0b100#3 a0 a1) s (startSeq cmdReset none true none { s with bm := 0, leds := 0 })
  | setTypematic {s : State} {a0 a1 : Byte} (hp : s.PortFree) :
      Effect (.hostOp 0b101#3 a0 a1) s (startSeq cmdTypematic (some a0) true none s)
  | setLeds {s : State} {a0 a1 : Byte} {leds : LedMask} (hp : s.PortFree) :
      Effect (.hostOp 0b110#3 a0 a1) s
        (startSeq cmdSetLeds (some (ledByte leds)) true none { s with leds := leds })
  | reservedOp {s : State} {a0 a1 : Byte} (hp : s.PortFree) :
      Effect (.hostOp 0b111#3 a0 a1) s { s with resp := s.resp ++ [.done] }
  | rtsWait {s : State} (he : s.rtsEnabled = false) : Effect .fgRts s s
  | rts {s : State} {b : Byte} (hp : s.fgPhase = fgIdle) (hl : s.txqLen ≠ 0) : Effect .fgRts s (beginSend b s)
  | primeWait {s : State} (hp : s.fgPhase ≠ fgInRts) : Effect .fgPrime s s
  | primeThenWait {s : State} (hp : s.fgPhase = fgInRts) (hw : s.fgWait = true) :
      Effect .fgPrime s { txPrime s with fgPhase := fgInWait }
  | primeThenIdle {s : State} (hp : s.fgPhase = fgInRts) (hw : s.fgWait = false) :
      Effect .fgPrime s (finishIfLast { txPrime s with fgPhase := fgIdle })
  | doneWait {s : State} (he : s.doneEnabled = false) : Effect .fgDone s s
  | done {s : State} (hp : s.fgPhase = fgInWait) (hl : isSendState s.leState = false) :
      Effect .fgDone s (finishIfLast { s with fgPhase := fgIdle })
  | tick {s : State} : Effect .tick s { s with hbCount := min (s.hbCount + 1) (2 ^ s.params.hbW - 1) }

/-- The 32 codes of `le_state`, legal and reserved (R56). -/
theorem le_cases (le : BitVec 5) :
    le = leWaitStart ∨ le = leWaitParity ∨ le = leWaitStop ∨ le = leWaitSendParity ∨ le = leWaitSendStop ∨
    le = leWaitSendAck ∨ (∃ n, le = leWaitData n) ∨ (∃ n, le = leWaitSendData n) ∨ legalLe le = false := by
  revert le; decide

/-- The operation an attached edge is decoded to, by `le_state` (R57). -/
theorem decodeEdge_rows (d : Bool) :
    decodeEdge (edgeKey leWaitStart d) = .rxStart d ∧ decodeEdge (edgeKey leWaitParity d) = .rxParity d ∧
    decodeEdge (edgeKey leWaitStop d) = .rxStop d ∧ decodeEdge (edgeKey leWaitSendParity d) = .txParity d ∧
    decodeEdge (edgeKey leWaitSendStop d) = .txStop d ∧ decodeEdge (edgeKey leWaitSendAck d) = .txAck d ∧
    (∀ n, decodeEdge (edgeKey (leWaitData n) d) = .rxData n d) ∧
    (∀ n, decodeEdge (edgeKey (leWaitSendData n) d) = .txData n d) := by
  revert d; decide

/-- A reserved `le_state` is refused (R56). -/
theorem exec_reserved_le {le : BitVec 5} (h : legalLe le = false) (d : Bool) (s : State) :
    exec (decodeEdge (edgeKey le d)) s = .refused .reservedLeState := by
  have key : ∀ le : BitVec 5, legalLe le = false → ∀ d : Bool,
      decodeEdge (edgeKey le d) ∈ [Instr.reservedLe00011 d, .reservedLe00111 d, .reservedLe10 0 d, .reservedLe10 1 d,
        .reservedLe10 2 d, .reservedLe10 3 d, .reservedLe10 4 d, .reservedLe10 5 d, .reservedLe10 6 d,
        .reservedLe10 7 d] := by decide
  have := key le h d
  simp only [List.mem_cons, List.not_mem_nil, or_false] at this
  rcases this with e | e | e | e | e | e | e | e | e | e <;> rw [e] <;> rfl

theorem edge_effect {s t : State} {d : Bool} (ha : s.attached = true)
    (h : exec (decodeEdge (edgeKey s.leState d)) s = .next t) : Effect (.edge d) s t := by
  obtain ⟨r1, r2, r3, r4, r5, r6, r7, r8⟩ := decodeEdge_rows d
  have out : ∀ {f : State → State}, edgeStep f s = .next t → Effect (.edge d) s (f (countPulse s)) →
      Effect (.edge d) s t := by
    intro f hf he
    rw [edgeStep_attached ha] at hf
    exact Host.Outcome.next.inj hf ▸ he
  rcases le_cases s.leState with e | e | e | e | e | e | ⟨n, e⟩ | ⟨n, e⟩ | e
  · rw [e, r1] at h; simp only [exec, execRxStart] at h
    refine out h ?_
    cases d
    · exact .rxStart ha e
    · exact .badStart ha e
  · rw [e, r2] at h; simp only [exec, execRxParity] at h
    refine out h ?_
    by_cases hd : d = s.parity
    · subst hd; simpa [countPulse] using Effect.rxParity ha e
    · simpa [countPulse, hd, raiseErr] using Effect.badParity ha e hd
  · rw [e, r3] at h; simp only [exec, execRxStop] at h
    refine out h ?_
    cases d
    · exact .badStop ha e
    · cases hf : s.bf.full s.params.nB
      · simpa [countPulse, pushBf, hf] using Effect.rxStop ha e hf
      · simpa [countPulse, pushBf, hf, raiseErr] using Effect.byteOverflow ha e hf
  · rw [e, r4] at h; simp only [exec, execTxParity] at h; exact out h (.txParity ha e)
  · rw [e, r5] at h; simp only [exec, execTxStop] at h; exact out h (.txStop ha e)
  · rw [e, r6] at h; simp only [exec, execTxAck] at h
    refine out h ?_
    cases d
    · exact .txAck ha e
    · exact .invalidAck ha e
  · rw [e, r7] at h; simp only [exec, execRxData] at h; exact out h (.rxData ha e)
  · rw [e, r8] at h; simp only [exec, execTxData] at h; exact out h (.txData ha e)
  · rw [exec_reserved_le e] at h; cases h

/-- What emitting an event does to the state after the pop (R95). -/
theorem emit_effect {s : State} (x : Option Byte) (rel : Bool) (hc : 0 < s.bfCount) :
    Effect .decStep s (emitEvent x rel (popBf s)) := by
  rcases emitEvent_cases x rel (popBf s) with e | ⟨ev, hf, e⟩ | ⟨hf, e⟩ <;> rw [e]
  · exact .decMove hc (by decide)
  · exact .decStore hc hf
  · exact .keyOverflow hc hf

/-- Every row of the decoder, run on a state with a byte in BF, is an effect of `DEC_STEP`. -/
theorem dec_effect {s t : State} {w : BitVec 11} (hc : 0 < s.bfCount) (h : exec (decodeDec w) s = .next t) :
    Effect .decStep s t := by
  have out : ∀ {f : State → State}, decByteStep f s = .next t → Effect .decStep s (f (popBf s)) →
      Effect .decStep s t := by
    intro f hf he
    rw [decByteStep_enabled hc] at hf
    exact Host.Outcome.next.inj hf ▸ he
  unfold decodeDec at h
  dsimp only at h
  split_ifs at h <;>
  simp only [exec, execDExtPrefix, execDBrkPrefix, execDPauseLead, execDMake, execDExtBrkPrefix, execDPrefixErrExt,
    execDExtMake, execDPrefixErrBrk, execDBreak, execDExtBreak, execDPauseFiller14, execDPauseFillerE1,
    execDPauseFillerF0, execDPause77A, execDPause77B, execDPauseErr, execReservedDstate] at h <;>
  first
  | exact out h (.decMove hc rfl)
  | exact out h (.decKeep hc)
  | exact out h (.decodePrefix hc)
  | exact out h (.decodePause hc)
  | exact out h (emit_effect _ _ hc)
  | cases h

/-- `DEC_STEP` with a byte in BF and a legal `dstate` has a next state, one of its effects (R93). -/
theorem execDecStep_next {s : State} (hc : 0 < s.bfCount) (hl : legalDstate s.dstate = true) :
    ∃ t, execDecStep s = .next t ∧ Effect .decStep s t := by
  let P : Result → Prop := fun r => ∃ t, r = .next t ∧ Effect .decStep s t
  have out : ∀ {f : State → State}, Effect .decStep s (f (popBf s)) → P (decByteStep f s) :=
    fun he => ⟨_, decByteStep_enabled hc, he⟩
  have ite_case : ∀ {c : Prop} [Decidable c] {x y : Result}, (c → P x) → (¬ c → P y) → P (if c then x else y) := by
    intro c _ x y hx hy
    split
    · exact hx ‹_›
    · exact hy ‹_›
  have move : ∀ ds, legalDstate ds = true → P (decByteStep (fun s => { s with dstate := ds }) s) :=
    fun _ hd => out (.decMove hc hd)
  have keep : P (decByteStep (fun s => s) s) := out (.decKeep hc)
  have emit : ∀ (x : State → Option Byte) rel, P (decByteStep (fun s => emitEvent (x s) rel s) s) :=
    fun _ _ => out (emit_effect _ _ hc)
  have bad : P (decByteStep prefixError s) := out (.decodePrefix hc)
  refine ite_case (fun h0 => absurd hc (by omega)) (fun _ => ite_case (fun _ => ?_) fun h1 => ite_case (fun _ => ?_) fun h2 =>
    ite_case (fun _ => ?_) fun h3 => ite_case (fun _ => ?_) fun h4 => ite_case (fun _ => ?_) fun h5 =>
      ite_case (fun _ => ?_) fun h6 => ?_)
  · exact ite_case (fun _ => move _ rfl) fun _ => ite_case (fun _ => move _ rfl) fun _ =>
      ite_case (fun _ => move _ rfl) fun _ => emit _ _
  · exact ite_case (fun _ => move _ rfl) fun _ => ite_case (fun _ => bad) fun _ => emit _ _
  · exact ite_case (fun _ => bad) fun _ => emit _ _
  · exact ite_case (fun _ => bad) fun _ => emit _ _
  · exact ite_case (fun _ => keep) fun _ => ite_case (fun _ => keep) fun _ => ite_case (fun _ => keep) fun _ =>
      ite_case (fun _ => move _ rfl) fun _ => out (.decodePause hc)
  · exact ite_case (fun _ => keep) fun _ => ite_case (fun _ => keep) fun _ => ite_case (fun _ => keep) fun _ =>
      ite_case (fun _ => emit _ _) fun _ => out (.decodePause hc)
  · have legal : ∀ ds : BitVec 3, legalDstate ds = true → ds = dWaitStart ∨ ds = dWaitExtended ∨ ds = dWaitBreak ∨
        ds = dWaitExtendedBreak ∨ ds = dWaitFirst77 ∨ ds = dWaitSecond77 := by decide
    rcases legal _ hl with h | h | h | h | h | h <;> contradiction
theorem host_effect {s t : State} {op : BitVec 3} {a0 a1 : Byte}
    (h : exec (decodeHost (hostKey op a0 a1)) s = .next t) : Effect (.hostOp op a0 a1) s t := by
  have out : ∀ {f : State → State}, hostStep f s = .next t → (s.PortFree → Effect (.hostOp op a0 a1) s (f s)) →
      Effect (.hostOp op a0 a1) s t := by
    intro f hf hg
    rcases hostStep_next hf with ⟨hp, rfl⟩ | ⟨hb, rfl⟩
    · exact hg hp
    · exact .hostWait hb
  have h8 : op = 0 ∨ op = 1 ∨ op = 2 ∨ op = 3 ∨ op = 4 ∨ op = 5 ∨ op = 6 ∨ op = 7 := by
    clear out h; revert op; decide
  simp only [decodeHost, hostKey_op, hostKey_a0, hostKey_a1] at h
  rcases h8 with rfl | rfl | rfl | rfl | rfl | rfl | rfl | rfl
  · change execAvail a0 a1 s = _ at h
    unfold execAvail at h
    refine out h fun hp => ?_
    split_ifs <;> exact .avail hp
  · change execReadReport a0 a1 s = _ at h
    unfold execReadReport at h
    refine out h fun hp => ?_
    unfold readReportEffect
    split
    · rename_i hk
      dsimp only
      split
      · unfold readReleased
        dsimp only
        split
        · exact .readAnswer hp hk
        · exact .readLock hp hk
      · exact .readAnswer hp hk
    · rename_i hk
      exact .readIdle hp (by omega)
  · change execWrite a0 a1 s = _ at h
    unfold execWrite at h
    exact out h fun hp => .hostWrite hp
  · change execWriteWait a0 a1 s = _ at h
    unfold execWriteWait at h
    exact out h fun hp => .hostWriteWait hp
  · change execResetKbd a0 a1 s = _ at h
    unfold execResetKbd at h
    exact out h fun hp => .resetKbd hp
  · change execSetTypematic a0 a1 s = _ at h
    unfold execSetTypematic at h
    exact out h fun hp => .setTypematic hp
  · change execSetLeds a0 a1 s = _ at h
    unfold execSetLeds at h
    exact out h fun hp => .setLeds hp
  · change execReservedOp111 a0 a1 s = _ at h
    unfold execReservedOp111 at h
    exact out h fun hp => .reservedOp hp

theorem rts_effect {s t : State} {b : Byte} (h : fgStep s.rtsEnabled (beginSend b) s = .next t) :
    Effect .fgRts s t := by
  obtain ⟨-, ⟨he, rfl⟩ | ⟨he, rfl⟩⟩ := fgStep_next h
  · exact .rts ((rtsEnabled_iff s).1 he).1 ((rtsEnabled_iff s).1 he).2
  · exact .rtsWait he

/-- A step reaches one of the effects of the step offered. -/
theorem step_effect {s t : State} (h : step s = .next t) : Effect s.offered s.nextEvent.2 t := by
  unfold step at h
  unfold State.offered
  generalize s.nextEvent.2 = u at h ⊢
  cases he : s.nextEvent.1 with
  | edge d =>
    rw [he] at h
    simp only [fetch] at h
    cases ha : u.attached
    · rw [ha] at h; cases h; exact .detached ha
    · rw [ha] at h; exact edge_effect ha h
  | decStep =>
    rw [he] at h
    simp only [fetch] at h
    split at h
    · rename_i hc; exact dec_effect hc h
    · rename_i hc
      have h0 : u.bfCount = 0 := by omega
      have : exec .decStep u = .next u := by simp [exec, execDecStep, h0]
      rw [this] at h; cases h; exact .decIdle h0
  | hostOp op a0 a1 => rw [he] at h; exact host_effect h
  | fgRts =>
    rw [he] at h
    simp only [fetch] at h
    split at h
    · unfold decodeKbd at h
      split_ifs at h <;> exact rts_effect h
    · exact rts_effect h
  | fgPrime =>
    rw [he] at h
    simp only [fetch, exec, execFgPrime] at h
    obtain ⟨-, ⟨hb, e⟩ | ⟨hb, e⟩⟩ := fgStep_next h
    · have hp := (primeEnabled_iff u).1 hb
      cases hw : u.fgWait
      · rw [if_neg (by simp [hw])] at e; rw [e]; exact .primeThenIdle hp hw
      · rw [if_pos hw] at e; rw [e]; exact .primeThenWait hp hw
    · rw [e]
      exact .primeWait (fun hp => by rw [(primeEnabled_iff u).2 hp] at hb; cases hb)
  | fgDone =>
    rw [he] at h
    simp only [fetch, exec, execFgDone] at h
    obtain ⟨-, ⟨hb, e⟩ | ⟨hb, e⟩⟩ := fgStep_next h
    · have hp := (doneEnabled_iff u).1 hb
      rw [e]; exact .done hp.1 hp.2
    · rw [e]; exact .doneWait hb
  | tick => rw [he] at h; cases h; exact .tick

/-- A placed edge on an attached line runs the row of `le_state` (R57). -/
theorem step_edge {s : State} {d : Bool} {rest : List Event} (ha : s.attached = true)
    (he : s.events = .edge d :: rest) :
    step s = exec (decodeEdge (edgeKey s.leState d)) { s with events := rest } := by
  rw [step_cons he]
  exact congrArg (exec · _) (if_pos ha)

/-- A placed `DEC_STEP` with a byte in BF runs the row of `dstate` and the byte (R59). -/
theorem step_decByte {s : State} {rest : List Event} (hc : 0 < s.bfCount) (he : s.events = .decStep :: rest) :
    step s = exec (decodeDec (decKey s.dstate s.bf.front)) { s with events := rest } := by
  rw [step_cons he]
  exact congrArg (exec · _) (if_pos hc)

/-- Taking the offer changes nothing but the two fields that say which step comes next. -/
theorem nextEvent_state (s : State) :
    ∃ evs pos, s.nextEvent.2 = { s with events := evs, eventPos := pos } := by
  unfold State.nextEvent
  split
  · exact ⟨_, s.eventPos, rfl⟩
  · exact ⟨s.events, _, rfl⟩

end Sys2Proof.Machine
end

