-- ==== Sys2Proof/Tests/Slice0.lean ====
section
/-! SUPPORT. Tests with expected results from the spec (spec/30_encoding.md, spec/95_test_vectors.md), and one witness per
obligation that has hypotheses. -/

namespace Sys2Proof.Machine.Tests

/-! ### Ill-formed terms are refused (R59) -/

theorem test_illformed_dMake : (Instr.dMake 0xE0).wellFormed = false ∧ (Instr.dMake 0xF0).wellFormed = false ∧
    (Instr.dMake 0xE1).wellFormed = false ∧ (Instr.dMake 0xE2).wellFormed = true := by decide
theorem test_illformed_dExtMake : (Instr.dExtMake 0xE0).wellFormed = false ∧
    (Instr.dExtMake 0xF0).wellFormed = false ∧ (Instr.dExtMake 0xE1).wellFormed = true := by decide
theorem test_illformed_dBreak : (Instr.dBreak 0xE0).wellFormed = false ∧ (Instr.dBreak 0xF0).wellFormed = false ∧
    (Instr.dBreak 0xE1).wellFormed = true := by decide
theorem test_illformed_dExtBreak : (Instr.dExtBreak 0xE0).wellFormed = false ∧
    (Instr.dExtBreak 0xF0).wellFormed = false ∧ (Instr.dExtBreak 0xE1).wellFormed = true := by decide
theorem test_illformed_dPauseErr : (Instr.dPauseErr false 0x14).wellFormed = false ∧
    (Instr.dPauseErr true 0xE1).wellFormed = false ∧ (Instr.dPauseErr false 0xF0).wellFormed = false ∧
    (Instr.dPauseErr true 0x77).wellFormed = false ∧ (Instr.dPauseErr true 0xE0).wellFormed = true := by decide

/-! ### Words written out from the encodings of R57, R59, R61 and R68, one per constructor -/

theorem test_decode_receive_rows :
    decodeTableWord 8 0b000000 = some (.rxStart false) ∧ decodeTableWord 8 0b000001 = some (.rxStart true) ∧
    decodeTableWord 8 0b010101 = some (.rxData 2 true) ∧ decodeTableWord 8 0b011110 = some (.rxData 7 false) ∧
    decodeTableWord 8 0b000011 = some (.rxParity true) ∧ decodeTableWord 8 0b000101 = some (.rxStop true) := by decide
theorem test_decode_send_rows :
    decodeTableWord 8 0b110001 = some (.txData 0 true) ∧ decodeTableWord 8 0b111111 = some (.txData 7 true) ∧
    decodeTableWord 8 0b001001 = some (.txParity true) ∧ decodeTableWord 8 0b001011 = some (.txStop true) ∧
    decodeTableWord 8 0b001100 = some (.txAck false) := by decide
theorem test_decode_reserved_le_rows :
    decodeTableWord 8 0b000110 = some (.reservedLe00011 false) ∧
    decodeTableWord 8 0b001111 = some (.reservedLe00111 true) ∧
    decodeTableWord 8 0b101011 = some (.reservedLe10 5 true) := by decide
theorem test_decode_start_rows :
    decodeTableWord 16 0b00011100000 = some .dExtPrefix ∧ decodeTableWord 16 0b00011110000 = some .dBrkPrefix ∧
    decodeTableWord 16 0b00011100001 = some .dPauseLead ∧ decodeTableWord 16 0b00000011100 = some (.dMake 0x1C) := by
  decide
theorem test_decode_extended_rows :
    decodeTableWord 16 0b00111110000 = some .dExtBrkPrefix ∧ decodeTableWord 16 0b00111100000 = some .dPrefixErrExt ∧
    decodeTableWord 16 0b00101101100 = some (.dExtMake 0x6C) := by decide
theorem test_decode_break_rows :
    decodeTableWord 16 0b01011100000 = some (.dPrefixErrBrk false false) ∧
    decodeTableWord 16 0b01111110000 = some (.dPrefixErrBrk true true) ∧
    decodeTableWord 16 0b01000011100 = some (.dBreak 0x1C) ∧
    decodeTableWord 16 0b01101101100 = some (.dExtBreak 0x6C) := by decide
theorem test_decode_pause_rows :
    decodeTableWord 16 0b10000010100 = some (.dPauseFiller14 false) ∧
    decodeTableWord 16 0b10111100001 = some (.dPauseFillerE1 true) ∧
    decodeTableWord 16 0b10111110000 = some (.dPauseFillerF0 true) ∧
    decodeTableWord 16 0b10001110111 = some .dPause77A ∧ decodeTableWord 16 0b10101110111 = some .dPause77B ∧
    decodeTableWord 16 0b10100011100 = some (.dPauseErr true 0x1C) ∧
    decodeTableWord 16 0b11100000001 = some (.reservedDstate true 0x01) := by decide
theorem test_decode_host_rows :
    decodeTableWord 24 0b0000000000000000000 = some (.avail 0 0) ∧
    decodeTableWord 24 0b0010000000000000000 = some (.readReport 0 0) ∧
    decodeTableWord 24 0b0101110110100000000 = some (.write 0xED 0) ∧
    decodeTableWord 24 0b0111111010000000000 = some (.writeWait 0xF4 0) ∧
    decodeTableWord 24 0b1000000000000000000 = some (.resetKbd 0 0) ∧
    decodeTableWord 24 0b1010010000000000000 = some (.setTypematic 0x20 0) ∧
    decodeTableWord 24 0b1100000010000000111 = some (.setLeds 0x04 0x07) ∧
    decodeTableWord 24 0b1110000000100000010 = some (.reservedOp111 0x01 0x02) := by decide
theorem test_decode_command_bytes :
    decodeTableWord 8 0b11111111 = some .kbdCmdReset ∧ decodeTableWord 8 0b11110011 = some .kbdCmdTypematic ∧
    decodeTableWord 8 0b11101101 = some .kbdCmdSetLeds ∧ decodeTableWord 8 0b11110100 = none := by decide

/-! ### One step on a small state -/

/-- The state after `exec i s` passes the check `p`. -/
def after (i : Instr) (s : State) (p : State → Bool) : Bool :=
  match exec i s with
  | .next t => p t
  | .fault _ => false
  | .refused _ => false

/-- `exec i s` is refused for the reason `r`. -/
def refuses (i : Instr) (s : State) (r : Refusal) : Bool :=
  match exec i s with
  | .refused x => x == r
  | _ => false

/-- S0 of spec/95_test_vectors.md with a register of LE, the accumulator and the shift register set. -/
def line (le : BitVec 5) (current : Byte) (parity : Bool) : State :=
  { State.reset with leState := le, current := current, parity := parity }

/-- S0 with one byte in BF. -/
def oneByte (ds : BitVec 3) (b : Byte) : State :=
  { State.reset with dstate := ds, bf := { slots := [b, 0, 0, 0], head := 1, tail := 0 } }

/-- S0 with one event in KF. -/
def oneEvent (e : KeyEvent) : State :=
  { State.reset with kf := { slots := [e, 0, 0, 0], head := 1, tail := 0 } }

/-- S0 with both rings full: three entries each. -/
def fullRings : State :=
  { State.reset with
    bf := { slots := [0x1C, 0x1B, 0x23, 0], head := 3, tail := 0 }
    kf := { slots := [0x004, 0x016, 0x007, 0], head := 3, tail := 0 } }

/-- Vectors RX1 and RX2. -/
theorem test_rxStart : after (.rxStart false) State.reset
    (fun t => t.leState == 0b01000 && t.parity && t.pulseCount == 1 && t.errlog == []) := by decide
theorem test_rxStart_bad : after (.rxStart true) State.reset
    (fun t => t.leState == 0b00000 && t.pulseCount == 1 && t.errlog == [0x1]) := by decide
/-- Vector RX3, the third and the last of its edges. -/
theorem test_rxData : after (.rxData 2 true) (line 0b01010 0x00 true)
    (fun t => t.leState == 0b01011 && t.current == 0x80 && !t.parity) := by decide
theorem test_rxData_last : after (.rxData 7 false) (line 0b01111 0x38 false)
    (fun t => t.leState == 0b00001 && t.current == 0x1C && !t.parity) := by decide
/-- Vectors RX5 and RX6. -/
theorem test_rxParity : after (.rxParity false) (line 0b00001 0x1C false)
    (fun t => t.leState == 0b00010 && t.errlog == []) := by decide
theorem test_rxParity_bad : after (.rxParity true) (line 0b00001 0x1C false)
    (fun t => t.leState == 0b00000 && t.errlog == [0x2]) := by decide
/-- Vector RX9's last edge: ring 1/0 [1C]. -/
theorem test_rxStop : after (.rxStop true) (line 0b00010 0x1C false)
    (fun t => t.leState == 0b00000 && t.bf.head == 1 && t.bf.tail == 0 && t.bf.slots.head? == some 0x1C) := by decide
/-- Vector RX11: a bad stop bit at a full BF raises no overflow. -/
theorem test_rxStop_bad_when_full : after (.rxStop false) { fullRings with leState := 0b00010 }
    (fun t => t.errlog == [0x3] && t.bf == fullRings.bf) := by decide
/-- Table TX2, edges 1 and 8. -/
theorem test_txData : after (.txData 0 true) (line 0b11000 0xED true)
    (fun t => !t.dataDriveLow && !t.parity && t.current == 0x76 && t.leState == 0b11001) := by decide
theorem test_txData_last : after (.txData 7 true) (line 0b11111 0x01 false)
    (fun t => !t.dataDriveLow && t.parity && t.current == 0x00 && t.leState == 0b00100) := by decide
/-- Vector TX3, edge 9: the parity bit 0 pulls the line low. -/
theorem test_txParity : after (.txParity true) (line 0b00100 0x00 false)
    (fun t => t.dataDriveLow && t.leState == 0b00101) := by decide
theorem test_txStop : after (.txStop true) { line 0b00101 0x00 false with dataDriveLow := true }
    (fun t => !t.dataDriveLow && t.leState == 0b00110) := by decide
/-- Vectors TX4 and TX5. -/
theorem test_txAck : after (.txAck false) (line 0b00110 0 true) (fun t => t.leState == 0 && t.errlog == []) := by decide
theorem test_txAck_bad : after (.txAck true) (line 0b00110 0 true)
    (fun t => t.leState == 0 && t.errlog == [0x4]) := by decide
/-- Vector RX14. -/
theorem test_edgeDetached : after (.edgeDetached false) { State.reset with attached := false }
    (fun t => t == { State.reset with attached := false }) := by decide
/-- R56, R58, R62. -/
theorem test_reserved_rows : refuses (.reservedLe00011 true) State.reset .reservedLeState ∧
    refuses (.reservedLe00111 true) State.reset .reservedLeState ∧
    refuses (.reservedLe10 3 true) State.reset .reservedLeState ∧
    refuses (.reservedDstate false 0x1C) (oneByte 0b110 0x1C) .reservedDstate ∧
    refuses .fgDone { State.reset with fgPhase := 0b11 } .reservedFgPhase := by decide

/-- Vectors DC1 to DC3. -/
theorem test_dExtPrefix : after .dExtPrefix (oneByte 0b000 0xE0)
    (fun t => t.dstate == 0b001 && t.bf.tail == 1 && t.kf.head == 0) := by decide
theorem test_dBrkPrefix : after .dBrkPrefix (oneByte 0b000 0xF0) (fun t => t.dstate == 0b010 && t.bf.tail == 1) := by
  decide
theorem test_dPauseLead : after .dPauseLead (oneByte 0b000 0xE1) (fun t => t.dstate == 0b100 && t.bf.tail == 1) := by
  decide
/-- Vectors DC4 and DC6: A is 0x04; the reply byte 0xFA is unmapped. -/
theorem test_dMake : after (.dMake 0x1C) (oneByte 0b000 0x1C)
    (fun t => t.kf.head == 1 && t.kf.slots.head? == some 0x004 && t.bf.tail == 1) := by decide
theorem test_dMake_unmapped : after (.dMake 0xFA) (oneByte 0b000 0xFA)
    (fun t => t.kf.head == 0 && t.errlog == [] && t.bf.tail == 1) := by decide
theorem test_dExtBrkPrefix : after .dExtBrkPrefix (oneByte 0b001 0xF0) (fun t => t.dstate == 0b011) := by decide
theorem test_dPrefixErrExt : after .dPrefixErrExt (oneByte 0b001 0xE0)
    (fun t => t.dstate == 0b000 && t.errlog == [0x6] && t.kf.head == 0) := by decide
/-- Vector DC10: Home is 0x4A. -/
theorem test_dExtMake : after (.dExtMake 0x6C) (oneByte 0b001 0x6C)
    (fun t => t.dstate == 0b000 && t.kf.slots.head? == some 0x04A) := by decide
theorem test_dPrefixErrBrk : after (.dPrefixErrBrk false false) (oneByte 0b010 0xE0)
    (fun t => t.dstate == 0b000 && t.errlog == [0x6]) := by decide
/-- Section 1.3: F0 1C is R(04). -/
theorem test_dBreak : after (.dBreak 0x1C) (oneByte 0b010 0x1C)
    (fun t => t.dstate == 0b000 && t.kf.slots.head? == some 0x104) := by decide
theorem test_dExtBreak : after (.dExtBreak 0x6C) (oneByte 0b011 0x6C)
    (fun t => t.dstate == 0b000 && t.kf.slots.head? == some 0x14A) := by decide
theorem test_dPauseFillers : after (.dPauseFiller14 false) (oneByte 0b100 0x14) (fun t => t.dstate == 0b100) ∧
    after (.dPauseFillerE1 true) (oneByte 0b101 0xE1) (fun t => t.dstate == 0b101 && t.errlog == []) ∧
    after (.dPauseFillerF0 true) (oneByte 0b101 0xF0) (fun t => t.bf.tail == 1 && t.kf.head == 0) := by decide
theorem test_dPause77A : after .dPause77A (oneByte 0b100 0x77) (fun t => t.dstate == 0b101 && t.kf.head == 0) := by
  decide
/-- Section 1.4: one P(48). -/
theorem test_dPause77B : after .dPause77B (oneByte 0b101 0x77)
    (fun t => t.dstate == 0b000 && t.kf.slots.head? == some 0x048) := by decide
theorem test_dPauseErr : after (.dPauseErr true 0x1C) (oneByte 0b101 0x1C)
    (fun t => t.dstate == 0b000 && t.errlog == [0x7] && t.kf.head == 0) := by decide
/-- Program 3.5, step 4: the key buffer overflows. -/
theorem test_decStep_key_overflow : after .decStep { fullRings with bf := { slots := [0x2B, 0, 0, 0], head := 1, tail := 0 } }
    (fun t => t.errlog == [0x8] && t.kf == fullRings.kf && t.bf.tail == 1) := by decide
/-- Section 1.8: the prefix byte of F0 E0 is an error. -/
theorem test_decStep_prefix : after .decStep (oneByte 0b010 0xE0)
    (fun t => t.errlog == [0x6] && t.dstate == 0b000) := by decide

/-- R116's example, and program 3.5, step 5. -/
theorem test_avail_heartbeat : after (.avail 0 0)
    { State.reset with params := { Config.reference with reportInterval := 3 }, hbCount := 3 }
    (fun t => t.resp == [.count 1]) := by decide
theorem test_avail_count : after (.avail 0 0) fullRings (fun t => t.resp == [.count 3]) := by decide
/-- Program 3.1, step 4. -/
theorem test_readReport : after (.readReport 0 0) (oneEvent 0x004)
    (fun t => t.resp == [.report 0x00000000000400] && bmRead t.bm 0x04 && t.kf.tail == 1) := by decide +kernel
/-- Program 3.2, step 6; and vector H26: the hook is applied before the lock-key test. -/
theorem test_readReport_lock : after (.readReport 0 0) { oneEvent 0x139 with bm := 1#256 <<< 0x39 }
      (fun t => t.leds == 0b100 && t.txq0 == 0xED && t.txq1 == 0x04 && t.txqLen == 2 && t.pendValid &&
        t.pendRpt == 0 && t.resp == []) ∧
    after (.readReport 0 0)
      { oneEvent 0x104 with params := { Config.reference with transform := [(0x04, 0x39)] } }
      (fun t => t.leds == 0b100 && t.txq0 == 0xED && t.txq1 == 0x04 && t.txqLen == 2 && t.resp == []) := by
  decide +kernel
theorem test_write : after (.write 0xED 0x55) State.reset
    (fun t => t.txq0 == 0xED && t.txqLen == 1 && !t.fgWait && t.fgBusy && t.resp == []) := by decide
theorem test_writeWait : after (.writeWait 0xF4 0) State.reset
    (fun t => t.txq0 == 0xF4 && t.txqLen == 1 && t.fgWait) := by decide
/-- R120's example. -/
theorem test_resetKbd : after (.resetKbd 0 0) { oneEvent 0x004 with bm := 0x10, leds := 0b100 }
    (fun t => t.bm == 0 && t.leds == 0 && t.txq0 == 0xFF && t.txqLen == 1 && t.kf.head == 1) := by decide
theorem test_setTypematic : after (.setTypematic 0x20 0) State.reset
    (fun t => t.txq0 == 0xF3 && t.txq1 == 0x20 && t.txqLen == 2 && t.fgWait) := by decide
/-- R122's example. -/
theorem test_setLeds : after (.setLeds 0x04 0x04) { State.reset with leds := 0b001 }
    (fun t => t.leds == 0b101 && t.txq0 == 0xED && t.txq1 == 0x05) := by decide
theorem test_reservedOp111 : after (.reservedOp111 9 9) State.reset
    (fun t => t == { State.reset with resp := [.done] }) := by decide

/-- R127's example. -/
theorem test_fgRts : after .fgRts { State.reset with txq0 := 0xED, txq1 := 0x04, txqLen := 2 }
    (fun t => t.txbuf == 0xED && t.txq0 == 0x04 && t.txqLen == 1 && t.fgPhase == 0b01 && !t.attached && t.rts) := by
  decide
theorem test_kbdCmds : after .kbdCmdReset { State.reset with txq0 := 0xFF, txqLen := 1 }
      (fun t => t.txbuf == 0xFF && t.clkDriveLow && t.dataDriveLow) ∧
    after .kbdCmdTypematic { State.reset with txq0 := 0xF3, txq1 := 0x20, txqLen := 2 }
      (fun t => t.txbuf == 0xF3 && t.txq0 == 0x20) ∧
    after .kbdCmdSetLeds { State.reset with txq0 := 0xED, txq1 := 0x04, txqLen := 2 }
      (fun t => t.txbuf == 0xED && t.txq0 == 0x04) := by decide
/-- A request-to-send for 0xED, as table TX1 leaves it. -/
def inRts (wait : Bool) : State :=
  { State.reset with
    attached := false, clkDriveLow := true, dataDriveLow := true, rts := true, txbuf := 0xED, fgPhase := 0b01
    fgWait := wait }
/-- Table TX1, second row, and vector G7. -/
theorem test_fgPrime : after .fgPrime (inRts true)
    (fun t => t.attached && !t.clkDriveLow && t.dataDriveLow && t.current == 0xED && t.parity && t.leState == 0b11000 &&
      t.fgPhase == 0b10) := by decide
theorem test_fgPrime_done : after .fgPrime (inRts false)
    (fun t => t.fgPhase == 0b00 && t.resp == [.done] && !t.fgBusy) := by decide
/-- Vector G6. -/
theorem test_fgDone : after .fgDone { State.reset with fgPhase := 0b10, pendValid := true, pendRpt := 0x400 }
    (fun t => t.fgPhase == 0b00 && !t.pendValid && t.resp == [.report 0x400]) := by decide
/-- R126: the counter saturates at 2^HB_W - 1. -/
theorem test_tick : after .tick State.reset (fun t => t.hbCount == 1) ∧
    after .tick { State.reset with hbCount := 4294967295 } (fun t => t.hbCount == 4294967295) := by decide
/-- Section 2.1, a few of its bytes. -/
theorem test_oddParity : oddParity 0x1C = false ∧ oddParity 0xED = true ∧ oddParity 0x00 = true ∧
    oddParity 0xFF = true := by decide
/-- Program 3.6, reports 6 and 7: six keys are listed in ascending order, seven give the sentinel. -/
theorem test_formatReport :
    let six : List Byte := [0x04, 0x16, 0x07, 0x09, 0x0A, 0x0B]
    formatReport Config.reference (six.foldl (bmWrite · · true) 0) = 0x160B0A09070400 ∧
    formatReport Config.reference ((0x0D :: six).foldl (bmWrite · · true) 0) = 0x01010101010100 := by decide +kernel
/-- The step runs the placed word as the first instruction after reset. -/
theorem test_step_runs_placed_word :
    step (State.reset.withFetchWord 24 0x2ED00) = exec (.write 0xED 0) State.reset ∧
    step (State.reset.withFetchWord 8 0x00) = exec (.rxStart false) State.reset := ⟨rfl, rfl⟩

/-! ### Witnesses: concrete states that meet each obligation's hypotheses -/

/-- S0 with the next steps placed. -/
def placed (evs : List Event) : State := { State.reset with events := evs }

/-- The port waiting for a byte's eleven edges (spec/95_test_vectors.md section 1.9), with a lock key's report latched. -/
def waiting : State :=
  { State.reset with
    fgPhase := fgInWait, fgWait := true, leState := leWaitSendData 0, current := 0xED, parity := true, txbuf := 0xED
    dataDriveLow := true, txq0 := 0x04, txqLen := 1, leds := 0b100, pendValid := true
    pendRpt := formatReport Config.reference 0 }

/-- `waiting` meets the invariant. -/
theorem waiting_inv : waiting.Inv where
  params_valid := ⟨by decide, by decide, by decide, by decide, by decide, by decide, by decide, by decide⟩
  le_legal := by decide
  dstate_legal := by decide
  phase_legal := by decide
  txqLen_le := by decide
  bf_legal := ⟨rfl, by decide, by decide⟩
  kf_legal := ⟨rfl, by decide, by decide⟩
  pulse_lt := by decide
  hb_lt := by decide
  rts_iff := by decide
  attached_eq := by decide
  clk_eq := by decide
  data_in_rts := by decide
  data_released := by decide
  pend_busy := by decide

theorem test_witness_DecodeAfterEncode : (Instr.dMake 0xFF).wellFormed = true ∧
    (Instr.dPauseErr true 0x78).wellFormed = true ∧ Instr.decStep.wellFormed = true := by decide
theorem test_witness_EncodeAfterDecode : decode (.kbdCmd 0xED) = .ok .kbdCmdSetLeds ∧
    decode (.decByte 0x01C) = .ok (.dMake 0x1C) ∧ decode (.kbdCmd 0xEE) = .error .notACommandByte := by decide
theorem test_witness_StepRunsDecodedInstruction :
    (placed [.edge true]).events = .edge true :: [] ∧ State.reset.events = [] ∧
    ((placed [.edge true]).offered = .edge true ∧ (placed [.edge true]).attached = true ∧
      decode (.edge ((placed [.edge true]).leState ++ BitVec.ofBool true)) = .ok (.rxStart true)) ∧
    ({ placed [.edge false] with attached := false }.offered = .edge false ∧
      { placed [.edge false] with attached := false }.attached = false) ∧
    ({ oneByte 0b010 0x1C with events := [.decStep] }.offered = .decStep ∧ 0 < (oneByte 0b010 0x1C).bfCount ∧
      decode (.decByte ((oneByte 0b010 0x1C).dstate ++ (oneByte 0b010 0x1C).bf.front)) = .ok (.dBreak 0x1C)) ∧
    ((placed [.decStep]).offered = .decStep ∧ (placed [.decStep]).bfCount = 0) ∧
    ((placed [.hostOp 0b111 0 1]).offered = .hostOp 0b111 0 1 ∧
      decode (.hostReq (0b111#3 ++ 0#8 ++ 1#8)) = .ok (.reservedOp111 0 1)) ∧
    ({ placed [.fgRts] with txq0 := 0xF3, txqLen := 2 }.offered = .fgRts ∧
      decode (.kbdCmd { placed [.fgRts] with txq0 := 0xF3, txqLen := 2 }.txq0) = .ok .kbdCmdTypematic) ∧
    ((placed [.fgRts]).offered = .fgRts ∧ (placed [.fgRts]).txqLen = 0) ∧
    (placed [.fgPrime]).offered = .fgPrime ∧ (placed [.fgDone]).offered = .fgDone ∧
    (placed [.tick]).offered = .tick := by decide
theorem test_witness_DecStepRunsItsRow :
    (0 < (oneByte 0b101 0x77).bfCount ∧
      decode (.decByte ((oneByte 0b101 0x77).dstate ++ (oneByte 0b101 0x77).bf.front)) = .ok .dPause77B) ∧
    State.reset.bfCount = 0 := by decide
/-- For `EveryLegalStateSteps`, `StepKeepsInvariant` and `PendingReportStaysCurrent`. -/
theorem test_witness_invariants : waiting.Inv ∧ waiting.PendCurrent ∧ waiting.pendValid = true ∧
    ∃ t, exec .tick waiting = .next t := ⟨waiting_inv, fun _ => rfl, rfl, _, rfl⟩
/-- For the statements over every step: a step with an LE error, one with a DEC error and one with none. -/
theorem test_witness_steps :
    (∃ t, step (placed [.edge true]) = .next t ∧ t.errlog = [0x1]) ∧
    (∃ t, step { oneByte 0b010 0xE0 with events := [.decStep] } = .next t ∧ t.errlog = [0x6]) ∧
    ∃ t, step (placed [.tick]) = .next t ∧ t.errlog = [] := ⟨⟨_, rfl, rfl⟩, ⟨_, rfl, rfl⟩, _, rfl, rfl⟩
/-- For the statements on the writers of `dstate`, the rings and the key state: steps that meet each premise. -/
theorem test_witness_writers :
    (∃ t, step (placed [.tick]) = .next t) ∧ (placed [.tick]).offered ≠ .decStep ∧
    (∀ d, (placed [.tick]).offered ≠ .edge d) ∧
    (∀ a0 a1, (placed [.tick]).offered ≠ .hostOp 0b001#3 a0 a1 ∧ (placed [.tick]).offered ≠ .hostOp 0b100#3 a0 a1 ∧
      (placed [.tick]).offered ≠ .hostOp 0b110#3 a0 a1) ∧
    (∃ t, step (placed [.edge false]) = .next t) ∧ (placed [.edge false]).offered ≠ .tick ∧
    (∃ t, step (placed [.decStep]) = .next t) ∧ (placed [.decStep]).offered = .decStep ∧
    (placed [.decStep]).bfCount = 0 := by
  refine ⟨⟨_, rfl⟩, by decide, by decide, fun _ _ => ⟨?_, ?_, ?_⟩, ⟨_, rfl⟩, by decide, ⟨_, rfl⟩, by decide, by decide⟩ <;> exact fun h => nomatch h

/-- For `RxStartResult`, `RxDataResult`, `TxDataResult`, `TxTailResult` and `EdgeFrame`. -/
theorem test_witness_attached : State.reset.attached = true ∧ (placed [.edge true]).offered = .edge true ∧
    ∃ t, step (placed [.edge true]) = .next t := ⟨rfl, rfl, _, rfl⟩
theorem test_witness_RxParityResult : (line leWaitParity 0 true).attached = true ∧
    true = (line leWaitParity 0 true).parity ∧ false ≠ (line leWaitParity 0 true).parity := by decide
/-- A full ring and a ring with one slot left. -/
theorem test_witness_RxStopResult : fullRings.attached = true ∧
    (fullRings.bf.head + 1) % fullRings.params.nB = fullRings.bf.tail ∧
    (({ fullRings.bf with tail := 1 } : Machine.Ring 8).head + 1) % fullRings.params.nB ≠ 1 := by decide
theorem test_witness_DetachedEdgeChangesNothing : { placed [.edge true] with attached := false }.attached = false ∧
    { placed [.edge true] with attached := false }.events = .edge true :: [] := by decide
theorem test_witness_ReservedCodesAreRefused : 0 < (oneByte 0b110 0).bfCount ∧
    (oneByte 0b110 0).dstate.extractLsb' 1 2 = 0b11#2 ∧ (oneByte 0b111 0).dstate.extractLsb' 1 2 = 0b11#2 ∧
    { State.reset with fgPhase := 0b11 }.fgPhase = 0b11#2 := by decide
/-- With room in BF and with BF full. -/
theorem test_witness_ValidFramePushesItsByte :
    ((placed (frameEdges 0x1C)).leState = leWaitStart ∧ (placed (frameEdges 0x1C)).attached = true ∧
      (placed (frameEdges 0x1C)).events = frameEdges 0x1C ++ [] ∧ (placed []).bf.full 4 = false) ∧
    { fullRings with events := frameEdges 0x2B }.events = frameEdges 0x2B ++ [] ∧
    fullRings.leState = leWaitStart ∧ fullRings.bf.full fullRings.params.nB = true := by decide
theorem fullRings_legal : Ring.Legal fullRings.params.nB fullRings.bf ∧
    Ring.Legal fullRings.params.nK fullRings.kf := ⟨⟨rfl, by decide, by decide⟩, ⟨rfl, by decide, by decide⟩⟩
theorem test_witness_FramesInSequenceFillByteRing : 2 ≤ fullRings.params.nB ∧
    Ring.Legal fullRings.params.nB fullRings.bf ∧ fullRings.leState = leWaitStart ∧ fullRings.attached = true ∧
    { fullRings with events := [0x2B].flatMap frameEdges }.events = [0x2B].flatMap frameEdges ++ [] :=
  ⟨by decide, fullRings_legal.1, rfl, rfl, by decide⟩
/-- The same from an empty ring, with room for both frames. -/
theorem test_witness_FramesInSequence_room : 2 ≤ Config.reference.nB ∧
    Ring.Legal Config.reference.nB State.reset.bf ∧ State.reset.leState = leWaitStart ∧
    State.reset.attached = true ∧ State.reset.bf.count 4 = 0 ∧
    (placed ([0x1C, 0xF0].flatMap frameEdges)).events = [0x1C, 0xF0].flatMap frameEdges ++ [] :=
  ⟨by decide, ⟨rfl, by decide, by decide⟩, rfl, rfl, by decide, by decide⟩
theorem test_witness_BadParityFrameIsDropped :
    (placed ((frameEdges 0x1C).take 9 ++ [.edge true, .edge true])).events =
      (frameEdges 0x1C).take 9 ++ [Event.edge (!oddParity 0x1C), .edge true] ++ [] ∧
    State.reset.leState = leWaitStart ∧ State.reset.attached = true := by decide
theorem test_witness_SendDrivesByteThenParity :
    waiting.leState = leWaitSendData 0 ∧ waiting.attached = true ∧ waiting.current = 0xED ∧ waiting.parity = true ∧
    (List.replicate 10 true).length = 10 ∧
    { waiting with events := (List.replicate 10 true).map Event.edge ++ [Event.edge false] }.events =
      (List.replicate 10 true).map Event.edge ++ [Event.edge false] ++ [] := by decide

theorem test_witness_FullAndEmptyExclude : 2 ≤ 2 := by decide
/-- A full ring, a ring with one slot left, and a ring of two slots. -/
theorem test_witness_RingsAreQueues :
    (2 ≤ 4 ∧ Ring.Legal 4 fullRings.bf ∧ fullRings.bf.full 4 = true ∧ 0 < fullRings.bf.count 4) ∧
    (Ring.Legal 4 { fullRings.bf with tail := 1 } ∧ Ring.full 4 { fullRings.bf with tail := 1 } = false) ∧
    (Ring.Legal 2 ({ slots := [0, 0], head := 1, tail := 1 } : Machine.Ring 8)) ∧
    fullRings.kf.full fullRings.params.nK = true ∧ State.reset.kf.full 4 = false :=
  ⟨⟨by decide, fullRings_legal.1, by decide, by decide⟩, ⟨⟨rfl, by decide, by decide⟩, by decide⟩,
    ⟨rfl, by decide, by decide⟩, by decide, by decide⟩

/-- For the rows of the decoder and for `DecStepFrame`. -/
theorem test_witness_decoder_rows : 0 < (oneByte 0b101 0x77).bfCount ∧
    legalDstate (oneByte 0b101 0x77).dstate = true ∧ 0 < { fullRings with dstate := 0b000 }.bfCount := by decide
/-- Each clause of `EventRowsResult`: unmapped and silent, mapped, unmapped and emitted; a full KF and a free one. -/
theorem test_witness_EventRowsResult :
    (lookup Config.reference Config.referenceNormal 0xFA = none ∧ Config.reference.emitUnmapped = false) ∧
    lookup Config.reference Config.referenceExt 0x6C = some 0x4A ∧
    (lookup { Config.reference with emitUnmapped := true } Config.referenceNormal 0xFA = none ∧
      { Config.reference with emitUnmapped := true }.emitUnmapped = true) ∧
    (0 < fullRings.bfCount ∧ (fullRings.kf.head + 1) % fullRings.params.nK = fullRings.kf.tail) ∧
    (0 < (oneByte 0 0x1C).bfCount ∧
      ((oneByte 0 0x1C).kf.head + 1) % (oneByte 0 0x1C).params.nK ≠ (oneByte 0 0x1C).kf.tail) := by decide
/-- BF holding F0 E0 6C. -/
def fallthrough : State :=
  { State.reset with
    bf := { slots := [0xF0, 0xE0, 0x6C, 0], head := 3, tail := 0 }
    events := [.decStep, .decStep, .decStep] }
theorem test_witness_BreakThenExtensionFallsThrough : 2 ≤ fallthrough.params.nB ∧
    Ring.Legal fallthrough.params.nB fallthrough.bf ∧ fallthrough.dstate = dWaitStart ∧
    fallthrough.bf.contents fallthrough.params.nB = 0xF0 :: 0xE0 :: 0x6C :: [] ∧
    (0x6C#8 ≠ 0xE0#8 ∧ 0x6C#8 ≠ 0xF0#8 ∧ 0x6C#8 ≠ 0xE1#8) ∧
    fallthrough.events = .decStep :: .decStep :: .decStep :: [] :=
  ⟨by decide, ⟨rfl, by decide, by decide⟩, rfl, rfl, by decide, rfl⟩
/-- BF of eight slots holding E1 14 77 F0 E1 77. -/
def pauseBytes : State :=
  { State.reset with
    params := { Config.reference with nB := 8 }
    bf := { slots := [0xE1, 0x14, 0x77, 0xF0, 0xE1, 0x77, 0, 0], head := 6, tail := 0 }
    events := List.replicate 6 .decStep }
theorem test_witness_PauseSequenceGivesOneEvent : 2 ≤ pauseBytes.params.nB ∧
    Ring.Legal pauseBytes.params.nB pauseBytes.bf ∧ pauseBytes.dstate = dWaitStart ∧
    pauseBytes.kf.full pauseBytes.params.nK = false ∧
    { pauseBytes with kf := fullRings.kf }.kf.full pauseBytes.params.nK = true ∧ (∀ b ∈ [0x14#8], isFiller b = true) ∧
    (∀ b ∈ [0xF0#8, 0xE1#8], isFiller b = true) ∧
    pauseBytes.bf.contents pauseBytes.params.nB = [0xE1] ++ [0x14] ++ [0x77] ++ [0xF0, 0xE1] ++ [0x77] ++ [] ∧
    pauseBytes.events = List.replicate ([0x14#8].length + [0xF0#8, 0xE1#8].length + 3) Event.decStep ++ [] :=
  ⟨by decide, ⟨rfl, by decide, by decide⟩, rfl, by decide, by decide, by decide, by decide, rfl, rfl⟩

/-- For every statement on an enabled host operation. -/
theorem test_witness_port_free : State.reset.PortFree ∧ (oneEvent 0x004).PortFree := ⟨⟨rfl, rfl⟩, ⟨rfl, rfl⟩⟩
/-- Each clause of `ReadReportAnswersAtOnce`: nothing pending, Pressed (Pause, another key), Released (no lock key). -/
theorem test_witness_ReadReportAnswersAtOnce : State.reset.kf.count 4 = 0 ∧
    (0 < (oneEvent 0x048).kf.count 4 ∧ (oneEvent 0x048).kf.front.getLsbD 8 = false) ∧
    (0 < (oneEvent 0x104).kf.count 4 ∧ (oneEvent 0x104).kf.front.getLsbD 8 = true ∧
      transformKey Config.reference ((oneEvent 0x104).kf.front.extractLsb' 0 8) = 0x04 ∧
      Config.reference.kcScroll ≠ 0x04 ∧ Config.reference.kcNum ≠ 0x04 ∧ Config.reference.kcCaps ≠ 0x04) := by decide
/-- Each lock key, released and pressed. -/
theorem test_witness_LockKeyReleaseTogglesLed : Params.Valid Config.reference ∧
    (∀ k ∈ [Config.reference.kcScroll, Config.reference.kcNum, Config.reference.kcCaps],
      (oneEvent (1#1 ++ k)).kf.front.getLsbD 8 = true ∧ (oneEvent (0#1 ++ k)).kf.front.getLsbD 8 = false ∧
      transformKey Config.reference ((oneEvent (1#1 ++ k)).kf.front.extractLsb' 0 8) = k) ∧
    0 < (oneEvent 0x139).kf.count Config.reference.nK := ⟨waiting_inv.params_valid, by decide, by decide⟩
/-- The port busy with its phase, and with its queue. -/
theorem test_witness_HostWaitsWhileBusy : (waiting.fgPhase ≠ 0b11#2 ∧ waiting.fgPhase ≠ fgIdle) ∧
    ({ State.reset with txqLen := 1 }.fgPhase ≠ 0b11#2 ∧ { State.reset with txqLen := 1 }.txqLen ≠ 0) := by decide
/-- An operation that answers at once, one that queues bytes, and one that waits. -/
theorem test_witness_HostFrame : (∃ t, exec (.avail 0 0) State.reset = .next t) ∧
    (∃ t, exec (.setLeds 7 4) State.reset = .next t) ∧ ∃ t, exec (.write 0xED 0) waiting = .next t :=
  ⟨⟨_, rfl⟩, ⟨_, rfl⟩, _, rfl⟩
/-- The pressed non-modifier keys of the bitmap of keys 4 to 9 are those six. -/
theorem six_pressed : ∀ k : Byte, bmRead 0x3F0 k = true ∧ isModifier k = false →
    k ∈ ([4, 5, 6, 7, 8, 9] : List Byte) := by decide
/-- Seven pressed keys; exactly six; and a sentinel that is neither 0x00 nor pressed. -/
theorem test_witness_RolloverIffMoreThanSix :
    (([4, 5, 6, 7, 8, 9, 10] : List Byte).Nodup ∧ ([4, 5, 6, 7, 8, 9, 10] : List Byte).length = 7 ∧
      ∀ k ∈ ([4, 5, 6, 7, 8, 9, 10] : List Byte), bmRead 0x7F0 k = true ∧ isModifier k = false) ∧
    (∀ ks : List Byte, ks.Nodup → (∀ k ∈ ks, bmRead 0x3F0 k = true ∧ isModifier k = false) → ks.length ≤ 6) ∧
    (Config.reference.kcRollover ≠ 0 ∧
      ¬ (bmRead 0x7F0 Config.reference.kcRollover = true ∧ isModifier Config.reference.kcRollover = false)) :=
  ⟨by decide, fun _ hn h => (List.subperm_of_subset hn fun k hk => six_pressed k (h k hk)).length_le, by decide⟩
theorem test_witness_PauseReleasesItself : (oneEvent 0x048).PortFree ∧ (oneEvent 0x048).kf.count 4 = 1 ∧
    (oneEvent 0x048).kf.front.getLsbD 8 = false ∧
    transformKey Config.reference ((oneEvent 0x048).kf.front.extractLsb' 0 8) = Config.reference.kcPause ∧
    isModifier Config.reference.kcPause = false ∧ Config.reference.kcPause ≠ 0 ∧
    Config.reference.kcPause ≠ Config.reference.kcRollover ∧ 2 ≤ Config.reference.nK ∧
    Ring.Legal 4 (oneEvent 0x048).kf ∧ (∃ t, exec (.readReport 0 0) (oneEvent 0x048) = .next t) ∧
    (pressedKeys (bmWrite 0 Config.reference.kcPause true)).length ≤ 6 :=
  ⟨⟨rfl, rfl⟩, by decide, by decide, by decide, by decide, by decide, by decide, by decide,
    ⟨rfl, by decide, by decide⟩, ⟨_, rfl⟩, by decide +kernel⟩

/-- For `FgRtsResult` and `CommandBytesAreSentByRts`. -/
theorem test_witness_rts : { State.reset with txq0 := 0xED, txqLen := 1 }.fgPhase = fgIdle ∧
    { State.reset with txq0 := 0xED, txqLen := 1 }.txqLen ≠ 0 ∧
    { State.reset with txq0 := 0xED, txqLen := 1 }.txq0 = 0xED := by decide
theorem test_witness_FgPrimeResult : (inRts true).fgPhase = fgInRts ∧ (inRts false).fgPhase = fgInRts := by decide
theorem test_witness_FgDoneResult : { waiting with leState := leWaitStart }.fgPhase = fgInWait ∧
    isSendState leWaitStart = false ∧ isSendState (leWaitData 0) = false := by decide
/-- Each clause of `FgStepsWaitWhenDisabled`. -/
theorem test_witness_FgStepsWaitWhenDisabled : State.reset.fgPhase ≠ 0b11#2 ∧
    ¬ (State.reset.fgPhase = fgIdle ∧ State.reset.txqLen ≠ 0) ∧ State.reset.fgPhase ≠ fgInRts ∧
    ¬ (waiting.fgPhase = fgInWait ∧ isSendState waiting.leState = false) := by decide
theorem test_witness_SequencerFrame : (∃ t, exec .fgPrime (inRts true) = .next t) ∧
    (∃ t, exec .fgDone State.reset = .next t) ∧ ∃ t, exec .kbdCmdReset { State.reset with txqLen := 1 } = .next t :=
  ⟨⟨_, rfl⟩, ⟨_, rfl⟩, _, rfl⟩
theorem test_witness_WriteIsDoneAtPrime : (placed [.hostOp 0b010#3 0xED 0, .fgRts, .fgPrime]).PortFree ∧
    (placed [.hostOp 0b010#3 0xED 0, .fgRts, .fgPrime]).events =
      .hostOp 0b010#3 0xED 0 :: .fgRts :: .fgPrime :: [] := ⟨⟨rfl, rfl⟩, rfl⟩
theorem test_witness_WaitHangsWithoutEdges : { waiting with events := [.tick, .fgDone, .decStep] }.events =
      [.tick, .fgDone, .decStep] ++ [] ∧ waiting.Inv ∧ waiting.fgPhase = fgInWait ∧
    isSendState waiting.leState = true ∧ ∀ e ∈ [Event.tick, .fgDone, .decStep], ∀ d, e ≠ Event.edge d :=
  ⟨rfl, waiting_inv, rfl, rfl, by decide⟩
/-- Each clause of `TablesReadTheirEntries`: a listed index (mapped, and holding `KC_INVALID`) and one not listed, in a
scan table and in the hook. -/
theorem test_witness_TablesReadTheirEntries :
    ([(1, 9), (2, 7), (2, 8)] : Table) = [(1, 9)] ++ (2, 7) :: [(2, 8)] ∧ (∀ e ∈ ([(1, 9)] : Table), e.1 ≠ 2) ∧
    ([(2, 0)] : Table) = [] ++ (2, Config.reference.kcInvalid) :: [] ∧ (∀ e ∈ ([(1, 9)] : Table), e.1 ≠ 3) ∧
    { Config.reference with transform := [(4, 0x39)] }.transform = [] ++ (4, 0x39) :: [] ∧
    (∀ e ∈ Config.reference.transform, e.1 ≠ 4) := 
  ⟨rfl, by simp, rfl, by simp, rfl, fun _ h => nomatch h⟩

end Sys2Proof.Machine.Tests
end

/-! ### Every step keeps the invariant (R7, R20, R23 to R26, R28, R32, R33, R36)

One lemma per agent says which writes of that agent keep `Inv`; `Effect.keeps_inv` hands each effect of a step to the
lemma of its agent. -/

namespace Sys2Proof.Machine

/-! #### The rings keep their shape -/

theorem Ring.Legal.put {w n : Nat} {r : Ring w} (h : Ring.Legal n r) (v : BitVec w) : Ring.Legal n (r.put n v) where
  slots_length := (put_slots_length r v).trans h.slots_length
  head_lt := put_head_lt v h.head_lt
  tail_lt := h.tail_lt

theorem Ring.Legal.drop {w n : Nat} {r : Ring w} (h : Ring.Legal n r) : Ring.Legal n (r.drop n) where
  slots_length := h.slots_length
  head_lt := h.head_lt
  tail_lt := drop_tail_lt h.tail_lt

/-! #### The successor states of a bit -/

theorem legalLe_nextRxData (n : BitVec 3) : legalLe (nextRxData n) = true := by revert n; decide

theorem legalLe_nextTxData (n : BitVec 3) : legalLe (nextTxData n) = true := by revert n; decide

theorem isSendState_leWaitData (n : BitVec 3) : isSendState (leWaitData n) = false := by revert n; decide

/-- After a sent data bit the line is still being driven: the next state sends and is not the acknowledgment (R77). -/
theorem nextTxData_sends (n : BitVec 3) :
    ¬ (isSendState (nextTxData n) = false ∨ nextTxData n = leWaitSendAck) := by revert n; decide

namespace State.Inv

variable {s : State}

theorem rts_eq_false (h : s.Inv) (hp : s.fgPhase ≠ fgInRts) : s.rts = false :=
  Bool.eq_false_iff.2 fun hr => hp (h.rts_iff.1 hr)

theorem rts_eq_false_of_attached (h : s.Inv) (ha : s.attached = true) : s.rts = false := by
  simpa [ha] using h.attached_eq

/-- An attached line that sends nothing has its data line released (R25). -/
theorem data_eq_false (h : s.Inv) (ha : s.attached = true)
    (hl : isSendState s.leState = false ∨ s.leState = leWaitSendAck) : s.dataDriveLow = false :=
  h.data_released (h.rts_eq_false_of_attached ha) hl

/-- Taking the offer writes no register. -/
theorem nextEvent (h : s.Inv) : s.nextEvent.2.Inv := by
  obtain ⟨evs, pos, hs⟩ := nextEvent_state s
  rw [hs]
  exact { h with }

/-- What an attached edge may write (R73 to R80): a legal `le_state`, with the data line released where the state sends
nothing, and a legal BF. -/
theorem edge (h : s.Inv) (ha : s.attached = true) {le : BitVec 5} {drive parity : Bool} {current : Byte} {bf : Ring 8}
    {log : List (BitVec 4)} (hl : legalLe le = true)
    (hd : isSendState le = false ∨ le = leWaitSendAck → drive = false) (hb : Ring.Legal s.params.nB bf) :
    Inv { countPulse s with
      leState := le, dataDriveLow := drive, parity := parity, current := current, bf := bf, errlog := log } :=
  { h with
    le_legal := hl
    bf_legal := hb
    pulse_lt := Nat.mod_lt _ (Nat.two_pow_pos _)
    data_in_rts := fun hr => absurd ((h.rts_eq_false_of_attached ha).symm.trans hr) Bool.false_ne_true
    data_released := fun _ => hd }

/-- What a `DEC_STEP` that pops its byte may write (R93 to R108). -/
theorem dec (h : s.Inv) {ds : BitVec 3} {kf : Ring 9} {log : List (BitVec 4)} (hd : legalDstate ds = true)
    (hk : Ring.Legal s.params.nK kf) : Inv { popBf s with dstate := ds, kf := kf, errlog := log } :=
  { h with
    dstate_legal := hd
    bf_legal := h.bf_legal.drop
    kf_legal := hk }

/-- What the key-state manager and the timer may write (R116, R117, R120, R122, R126). -/
theorem keyState (h : s.Inv) {kf : Ring 9} {bm : Bitmap} {leds : LedMask} {hb : Nat} {resp : List Resp}
    (hk : Ring.Legal s.params.nK kf) (hh : hb < 2 ^ s.params.hbW) :
    Inv { s with kf := kf, bm := bm, leds := leds, hbCount := hb, resp := resp } :=
  { h with
    kf_legal := hk
    hb_lt := hh }

/-- A sequence started has one or two bytes queued, so the port is busy (R115). -/
theorem startSeq (h : s.Inv) (b0 : Byte) (b1 : Option Byte) (wait : Bool) (rpt : Option Report) :
    (startSeq b0 b1 wait rpt s).Inv :=
  { h with
    txqLen_le := by rw [startSeq_txqLen]; split <;> decide
    pend_busy := fun _ => (fgBusy_eq_true_iff _).2 (.inr (by rw [startSeq_txqLen]; split <;> decide)) }

/-- `FG_RTS` enters the request-to-send phase (R127). -/
theorem beginSend (h : s.Inv) (hl : s.txqLen ≠ 0) (b : Byte) : (beginSend b s).Inv :=
  { h with
    phase_legal := (by decide : fgInRts ≠ fgReserved)
    txqLen_le := by
      have shorter : ∀ n : BitVec 2, n ≠ 0 → n ≤ 2 → n - 1 ≤ 2 := by decide
      exact shorter _ hl h.txqLen_le
    rts_iff := ⟨fun _ => rfl, fun _ => rfl⟩
    attached_eq := rfl
    clk_eq := rfl
    data_in_rts := fun _ => rfl
    data_released := fun hr => absurd hr Bool.false_ne_true.symm
    pend_busy := fun _ => (fgBusy_eq_true_iff _).2 (.inl (by decide : fgInRts ≠ fgIdle)) }

/-- `TX_PRIME` leaves the request-to-send phase: the line is released and attached, and LE sends (R82, R128). -/
theorem prime (h : s.Inv) {phase : BitVec 2} {pend : Bool} (hp : phase = fgIdle ∨ phase = fgInWait)
    (hpend : pend = true → phase = fgInWait) : Inv { txPrime s with fgPhase := phase, pendValid := pend } :=
  { h with
    le_legal := (by decide : legalLe (leWaitSendData 0) = true)
    phase_legal := by rcases hp with rfl | rfl <;> simp
    rts_iff := by rcases hp with rfl | rfl <;> simp
    attached_eq := rfl
    clk_eq := rfl
    data_in_rts := fun hr => absurd hr Bool.false_ne_true
    data_released := fun _ hl => absurd hl
      (by decide : ¬ (isSendState (leWaitSendData 0) = false ∨ leWaitSendData 0 = leWaitSendAck))
    pend_busy := fun hv => (fgBusy_eq_true_iff _).2 (.inl (by simp [hpend hv])) }

/-- The wait ends (R129). -/
theorem endWait (h : s.Inv) (hp : s.fgPhase = fgInWait) : Inv { s with fgPhase := fgIdle, pendValid := false } :=
  have hr : s.rts = false := h.rts_eq_false (by rw [hp]; decide)
  { h with
    phase_legal := (by decide : fgIdle ≠ fgReserved)
    rts_iff := by simp [hr]
    pend_busy := fun hv => absurd hv Bool.false_ne_true }

/-- The end of a byte delivers the latched report unless a byte is left, which keeps the port busy (R128 to R130). -/
theorem finishIfLast (h : Inv { s with pendValid := false }) : (finishIfLast s).Inv := by
  rw [finishIfLast_eq]
  exact { h with
    pend_busy := fun hv => (fgBusy_eq_true_iff _).2 (.inr fun h0 : s.txqLen = 0 => by simp [h0] at hv) }

end State.Inv

/-- No effect of a step leaves the invariant. -/
theorem Effect.keeps_inv {e : Event} {s t : State} (he : Effect e s t) (h : s.Inv) : t.Inv := by
  have zero_lt : 0 < 2 ^ s.params.hbW := Nat.two_pow_pos _
  cases he with
  | detached | decIdle | hostWait | rtsWait | primeWait | doneWait => exact h
  | rxStart ha hl => exact h.edge ha rfl (fun _ => h.data_eq_false ha (by rw [hl]; decide)) h.bf_legal
  | badStart ha hl => exact h.edge ha h.le_legal (h.data_eq_false ha) h.bf_legal
  | rxData ha hl =>
    exact h.edge ha (legalLe_nextRxData _)
      (fun _ => h.data_eq_false ha (.inl (by rw [hl]; exact isSendState_leWaitData _))) h.bf_legal
  | rxParity ha hl | badParity ha hl | byteOverflow ha hl | badStop ha hl | txAck ha hl | invalidAck ha hl =>
    exact h.edge ha rfl (fun _ => h.data_eq_false ha (by rw [hl]; decide)) h.bf_legal
  | rxStop ha hl => exact h.edge ha rfl (fun _ => h.data_eq_false ha (by rw [hl]; decide)) (h.bf_legal.put _)
  | txData ha => exact h.edge ha (legalLe_nextTxData _) (fun hl => absurd hl (nextTxData_sends _)) h.bf_legal
  | txParity ha => exact h.edge ha rfl (fun hl => absurd hl (by decide)) h.bf_legal
  | txStop ha => exact h.edge ha rfl (fun _ => rfl) h.bf_legal
  | decMove _ hd => exact h.dec hd h.kf_legal
  | decKeep => exact h.dec h.dstate_legal h.kf_legal
  | decStore => exact h.dec rfl (h.kf_legal.put _)
  | keyOverflow | decodePrefix | decodePause => exact h.dec rfl h.kf_legal
  | avail | reservedOp => exact h.keyState h.kf_legal h.hb_lt
  | readIdle => exact h.keyState h.kf_legal zero_lt
  | readAnswer => exact h.keyState h.kf_legal.drop zero_lt
  | readLock =>
    exact (h.keyState (resp := s.resp) h.kf_legal.drop zero_lt).startSeq _ _ _ _
  | hostWrite | hostWriteWait | setTypematic => exact h.startSeq _ _ _ _
  | resetKbd | setLeds => exact (h.keyState (resp := s.resp) h.kf_legal h.hb_lt).startSeq _ _ _ _
  | rts _ hl => exact h.beginSend hl _
  | primeThenWait => exact h.prime (.inr rfl) fun _ => rfl
  | primeThenIdle => exact (h.prime (.inl rfl) fun hv => absurd hv Bool.false_ne_true).finishIfLast
  | done hp => exact (h.endWait hp).finishIfLast
  | tick => exact h.keyState h.kf_legal (by omega)

/-- Settles O9: a step reaches one of the effects listed once in `step_effect`, and each keeps the invariant. -/
theorem stepKeepsInvariant : Obligations.StepKeepsInvariant :=
  fun _ _ h hs => (step_effect hs).keeps_inv h.nextEvent

end Sys2Proof.Machine

/-! ### A step runs the instruction its offer decodes to (R10, R11, R57, R59, R61, R68)

One equation per kind of offer says what `fetch` reads; decoding is independent of the schedule's two fields. -/

namespace Sys2Proof.Machine

theorem nextEvent_nil {s : State} (h : s.events = []) :
    s.nextEvent = (Config.freeEvent s.eventPos, { s with eventPos := s.eventPos + 1 }) := by
  simp [State.nextEvent, h]

/-- Taking the offer changes no register that a decode key is read from. -/
theorem fetch_nextEvent (e : Event) (s : State) : fetch e s.nextEvent.2 = fetch e s := by
  obtain ⟨evs, pos, h⟩ := nextEvent_state s
  rw [h]
  cases e <;> rfl

theorem step_eq_exec_fetch (s : State) : step s = exec (fetch s.offered s) s.nextEvent.2 := by
  rw [← fetch_nextEvent]; rfl

/-! #### What an offer is decoded to -/

section
variable {s : State}

theorem fetch_edge_attached {d : Bool} {i : Instr} (ha : s.attached = true)
    (hi : decode (.edge (s.leState ++ BitVec.ofBool d)) = .ok i) : fetch (.edge d) s = i :=
  (if_pos ha).trans (Except.ok.inj hi)

theorem fetch_edge_detached (d : Bool) (ha : s.attached = false) : fetch (.edge d) s = .edgeDetached d :=
  if_neg (by simp [ha])

theorem fetch_decStep_byte {i : Instr} (hc : 0 < s.bfCount)
    (hi : decode (.decByte (s.dstate ++ s.bf.front)) = .ok i) : fetch .decStep s = i :=
  (if_pos hc).trans (Except.ok.inj hi)

theorem fetch_decStep_empty (hc : s.bfCount = 0) : fetch .decStep s = .decStep :=
  if_neg (by omega)

theorem fetch_hostOp {op : BitVec 3} {a0 a1 : Byte} {i : Instr}
    (hi : decode (.hostReq (op ++ a0 ++ a1)) = .ok i) : fetch (.hostOp op a0 a1) s = i :=
  Except.ok.inj hi

theorem decode_kbdCmd_eq_ok_iff {b : Byte} {i : Instr} : decode (.kbdCmd b) = .ok i ↔ decodeKbd b = some i := by
  cases h : decodeKbd b <;> simp [decode, h]

theorem decodeKbd_eq_none_iff {b : Byte} : decodeKbd b = none ↔ ¬ (b = 0xFF ∨ b = 0xF3 ∨ b = 0xED) := by
  unfold decodeKbd
  split_ifs <;> simp_all

theorem fetch_fgRts_command {i : Instr} (hp : s.fgPhase = fgIdle) (hl : s.txqLen ≠ 0)
    (hi : decode (.kbdCmd s.txq0) = .ok i) : fetch .fgRts s = i := by
  simp [fetch, (rtsEnabled_iff s).2 ⟨hp, hl⟩, decode_kbdCmd_eq_ok_iff.1 hi]

theorem fetch_fgRts_other
    (h : ¬ (s.fgPhase = fgIdle ∧ s.txqLen ≠ 0 ∧ (s.txq0 = 0xFF ∨ s.txq0 = 0xF3 ∨ s.txq0 = 0xED))) :
    fetch .fgRts s = .fgRts := by
  cases he : s.rtsEnabled
  · simp [fetch, he]
  · obtain ⟨hp, hl⟩ := (rtsEnabled_iff s).1 he
    have hb : decodeKbd s.txq0 = none := decodeKbd_eq_none_iff.2 fun hb => h ⟨hp, hl, hb⟩
    simp [fetch, hb]

end

/-- Settles O4: a step is `exec` of what `fetch` reads from the offer, and `fetch` reads what the key decodes to. -/
theorem stepRunsDecodedInstruction : Obligations.StepRunsDecodedInstruction := by
  intro s
  have runs {e : Event} {i : Instr} (ho : s.offered = e) (hf : fetch e s = i) : step s = exec i s.nextEvent.2 := by
    rw [step_eq_exec_fetch, ho, hf]
  exact ⟨fun _ _ => nextEvent_cons, nextEvent_nil,
    fun _ _ ho ha hi => runs ho (fetch_edge_attached ha hi),
    fun d ho ha => runs ho (fetch_edge_detached d ha),
    fun _ ho hc hi => runs ho (fetch_decStep_byte hc hi),
    fun ho hc => runs ho (fetch_decStep_empty hc),
    fun _ _ _ _ ho hi => runs ho (fetch_hostOp hi),
    fun _ ho hp hl hi => runs ho (fetch_fgRts_command hp hl hi),
    fun ho hn => runs ho (fetch_fgRts_other hn),
    fun ho => runs ho rfl, fun ho => runs ho rfl, fun ho => runs ho rfl⟩

end Sys2Proof.Machine

/-! ### From every legal state every step has a next state (R13, R142)

The rows an agent decodes to from legal registers all answer; the refusals belong to the reserved codes alone. A host
or FG step refuses only the reserved phase, so its answer is the other branch of that one test (`if_neg`). -/

namespace Sys2Proof.Machine

/-- The six legal codes of `dstate` (R58). -/
theorem legalDstate_cases {ds : BitVec 3} (h : legalDstate ds = true) :
    ds = dWaitStart ∨ ds = dWaitExtended ∨ ds = dWaitBreak ∨ ds = dWaitExtendedBreak ∨ ds = dWaitFirst77 ∨
    ds = dWaitSecond77 := by
  revert ds; decide

/-- An attached edge in a legal `le_state` is decoded to a row with a meaning (R57). -/
theorem exec_decodeEdge_answers {le : BitVec 5} (hl : legalLe le = true) (d : Bool) (s : State) :
    ∃ t, exec (decodeEdge (edgeKey le d)) s = .next t := by
  obtain ⟨start, parity, stop, sendParity, sendStop, sendAck, data, sendData⟩ := decodeEdge_rows d
  rcases le_cases le with rfl | rfl | rfl | rfl | rfl | rfl | ⟨n, rfl⟩ | ⟨n, rfl⟩ | reserved
  · rw [start]; exact ⟨_, rfl⟩
  · rw [parity]; exact ⟨_, rfl⟩
  · rw [stop]; exact ⟨_, rfl⟩
  · rw [sendParity]; exact ⟨_, rfl⟩
  · rw [sendStop]; exact ⟨_, rfl⟩
  · rw [sendAck]; exact ⟨_, rfl⟩
  · rw [data]; exact ⟨_, rfl⟩
  · rw [sendData]; exact ⟨_, rfl⟩
  · rw [hl] at reserved; cases reserved

/-- A scan byte in a legal `dstate` is decoded to a row with a meaning (R59). -/
theorem exec_decodeDec_answers {ds : BitVec 3} (hd : legalDstate ds = true) (b : Byte) (s : State) :
    ∃ t, exec (decodeDec (decKey ds b)) s = .next t := by
  unfold decodeDec
  simp only [decKey_state, decKey_byte]
  rcases legalDstate_cases hd with rfl | rfl | rfl | rfl | rfl | rfl
  all_goals
    simp -- leaves the rows of this decoder state, one per byte tested
    split_ifs <;> exact ⟨_, rfl⟩

/-- Every host request answers while `fg_phase` is legal, the reserved op included (R61, R123). -/
theorem exec_decodeHost_answers {s : State} (hp : s.fgPhase ≠ fgReserved) (w : BitVec 19) :
    ∃ t, exec (decodeHost w) s = .next t := by
  unfold decodeHost
  dsimp only
  split_ifs <;> exact ⟨_, if_neg hp⟩

/-- An `FG_RTS` answers, whichever byte it takes (R68, R127). -/
theorem exec_fgRts_answers {s : State} (hp : s.fgPhase ≠ fgReserved) (b : Byte) :
    ∃ t, exec ((decodeKbd b).getD .fgRts) s = .next t := by
  unfold decodeKbd
  split_ifs <;> exact ⟨_, if_neg hp⟩

/-- Whatever step a legal state is offered, it answers. -/
theorem exec_fetch_answers {s : State} (h : s.Inv) (e : Event) : ∃ t, exec (fetch e s) s = .next t := by
  cases e with
  | edge d =>
    cases ha : s.attached with
    | false => rw [fetch_edge_detached d ha]; exact ⟨_, rfl⟩
    | true => rw [fetch_edge_attached ha rfl]; exact exec_decodeEdge_answers h.le_legal d s
  | decStep =>
    rcases Nat.eq_zero_or_pos s.bfCount with hc | hc
    · rw [fetch_decStep_empty hc]; exact ⟨s, if_pos hc⟩
    · rw [fetch_decStep_byte hc rfl]; exact exec_decodeDec_answers h.dstate_legal _ s
  | hostOp op a0 a1 => exact exec_decodeHost_answers h.phase_legal _
  | fgRts =>
    simp only [fetch]
    split
    · exact exec_fgRts_answers h.phase_legal _
    · exact ⟨_, if_neg h.phase_legal⟩
  | fgPrime | fgDone => exact ⟨_, if_neg h.phase_legal⟩
  | tick => exact ⟨_, rfl⟩

/-- Settles O6: the state a step runs on meets the invariant too, and from there every offer answers. -/
theorem everyLegalStateSteps : Obligations.EveryLegalStateSteps :=
  fun s h => exec_fetch_answers h.nextEvent s.offered

end Sys2Proof.Machine

/-! ### The histories only grow (R34) -/

namespace Sys2Proof.Machine

/-- `step_effect` from the registers of `s` itself: the state a step runs on differs from `s` in the schedule's two
fields only. -/
theorem exists_step_effect {s t : State} (h : step s = .next t) :
    ∃ evs pos, Effect s.offered { s with events := evs, eventPos := pos } t := by
  obtain ⟨evs, pos, hs⟩ := nextEvent_state s
  exact ⟨evs, pos, hs ▸ step_effect h⟩

/-- The fields the end of a byte may write (R128 to R130). -/
theorem finishIfLast_frame (s : State) :
    finishIfLast s = { s with pendValid := (finishIfLast s).pendValid, resp := (finishIfLast s).resp } := by
  rw [finishIfLast_eq]

/-- The end of a byte appends at most one response (R128 to R130). -/
theorem finishIfLast_resp (s : State) :
    (finishIfLast s).resp = s.resp ∨ ∃ r, (finishIfLast s).resp = s.resp ++ [r] := by
  rw [finishIfLast_eq]
  by_cases h : s.txqLen = 0
  · exact .inr ⟨_, if_pos h⟩
  · exact .inl (if_neg h)

/-- The end of a byte extends the histories it starts from. -/
theorem finishIfLast_histories_grow {s u : State} (he : u.errlog = s.errlog) (hr : u.resp = s.resp) :
    s.errlog <+: (finishIfLast u).errlog ∧ s.resp <+: (finishIfLast u).resp := by
  rw [← he, ← hr]
  refine ⟨by rw [finishIfLast_frame], ?_⟩
  obtain h | ⟨r, h⟩ := finishIfLast_resp u
  · rw [h]
  · exact ⟨[r], h.symm⟩

/-- No effect of a step removes or rewrites an entry of a history. -/
theorem Effect.histories_grow {e : Event} {s t : State} (he : Effect e s t) :
    s.errlog <+: t.errlog ∧ s.resp <+: t.resp := by
  cases he with
  | badStart | badParity | byteOverflow | badStop | invalidAck | keyOverflow | decodePrefix | decodePause =>
    exact ⟨List.prefix_append .., List.prefix_rfl⟩
  | avail | readIdle | readAnswer | reservedOp => exact ⟨List.prefix_rfl, List.prefix_append ..⟩
  | primeThenIdle | done => exact finishIfLast_histories_grow rfl rfl
  | _ => exact ⟨List.prefix_rfl, List.prefix_rfl⟩

/-- Settles O11: reset starts with empty histories, and each effect of a step only appends to them. -/
theorem historiesOnlyGrow : Obligations.HistoriesOnlyGrow := by
  refine ⟨⟨rfl, rfl⟩, fun s t h => ?_⟩
  obtain ⟨evs, pos, he⟩ := exists_step_effect h
  obtain ⟨⟨es, hes⟩, rs, hrs⟩ := he.histories_grow
  exact ⟨⟨es, hes.symm⟩, rs, hrs.symm⟩

end Sys2Proof.Machine

/-! ### The writers of the bitmap, of `leds` and of `hb_count` (R30, R31, R32)

Each effect either leaves the register as it was or belongs to one of the steps named. -/

namespace Sys2Proof.Machine

@[simp] theorem finishIfLast_bm (s : State) : (finishIfLast s).bm = s.bm := by rw [finishIfLast_frame]
@[simp] theorem finishIfLast_leds (s : State) : (finishIfLast s).leds = s.leds := by rw [finishIfLast_frame]
@[simp] theorem finishIfLast_hbCount (s : State) : (finishIfLast s).hbCount = s.hbCount := by rw [finishIfLast_frame]

section
variable {e : Event} {s t : State}

/-- Only `READ_REPORT` and `RESET_KBD` write the bitmap (R30). -/
theorem Effect.bm_eq (he : Effect e s t)
    (h : ∀ a0 a1, e ≠ .hostOp 0b001#3 a0 a1 ∧ e ≠ .hostOp 0b100#3 a0 a1) : t.bm = s.bm := by
  cases he with
  | readAnswer | readLock => exact absurd rfl (h _ _).1
  | resetKbd => exact absurd rfl (h _ _).2
  | primeThenIdle | done => exact finishIfLast_bm _
  | _ => rfl

/-- Only `READ_REPORT`, `RESET_KBD` and `SET_LEDS` write `leds` (R31). -/
theorem Effect.leds_eq (he : Effect e s t)
    (h : ∀ a0 a1, e ≠ .hostOp 0b001#3 a0 a1 ∧ e ≠ .hostOp 0b100#3 a0 a1 ∧ e ≠ .hostOp 0b110#3 a0 a1) :
    t.leds = s.leds := by
  cases he with
  | readLock => exact absurd rfl (h _ _).1
  | resetKbd => exact absurd rfl (h _ _).2.1
  | setLeds => exact absurd rfl (h _ _).2.2
  | primeThenIdle | done => exact finishIfLast_leds _
  | _ => rfl

/-- Only `TICK` and `READ_REPORT` write `hb_count` (R32). -/
theorem Effect.hbCount_eq (he : Effect e s t) (htick : e ≠ .tick)
    (hread : ∀ a0 a1, e ≠ .hostOp 0b001#3 a0 a1) : t.hbCount = s.hbCount := by
  cases he with
  | tick => exact absurd rfl htick
  | readIdle | readAnswer | readLock => exact absurd rfl (hread _ _)
  | primeThenIdle | done => exact finishIfLast_hbCount _
  | _ => rfl

end

/-- Settles O16: the three registers' writers are read off the effects of the step offered. -/
theorem keyStateWriters : Obligations.KeyStateWriters := by
  intro s t h
  obtain ⟨evs, pos, he⟩ := exists_step_effect h
  exact ⟨he.bm_eq, he.leds_eq, he.hbCount_eq⟩

end Sys2Proof.Machine

/-! ### What no host operation touches (R17, R114, R116 to R123)

The eight host rows are what a host request decodes to, so their effects are those of a host step. A frame is one
equation: the state after is the state before with at most the fields named written. -/

namespace Sys2Proof.Machine

/-- The rows of a host request with operands `a0` and `a1` (R61). -/
def hostRows (a0 a1 : Byte) : List Instr :=
  [.avail a0 a1, .readReport a0 a1, .write a0 a1, .writeWait a0 a1, .resetKbd a0 a1, .setTypematic a0 a1,
    .setLeds a0 a1, .reservedOp111 a0 a1]

/-- Every host row has its op code (R61). -/
theorem exists_decodeHost_of_mem_hostRows {a0 a1 : Byte} :
    ∀ i ∈ hostRows a0 a1, ∃ op, decodeHost (hostKey op a0 a1) = i := by
  simp only [hostRows, List.forall_mem_cons]
  refine ⟨⟨0b000#3, ?_⟩, ⟨0b001#3, ?_⟩, ⟨0b010#3, ?_⟩, ⟨0b011#3, ?_⟩, ⟨0b100#3, ?_⟩, ⟨0b101#3, ?_⟩, ⟨0b110#3, ?_⟩,
    ⟨0b111#3, ?_⟩, List.forall_mem_nil _⟩ <;> simp [decodeHost]

theorem exists_hostOp_effect {s t : State} {a0 a1 : Byte} {i : Instr} (hi : i ∈ hostRows a0 a1)
    (h : exec i s = .next t) : ∃ op, Effect (.hostOp op a0 a1) s t := by
  obtain ⟨op, rfl⟩ := exists_decodeHost_of_mem_hostRows i hi
  exact ⟨op, host_effect h⟩

section
variable {s t : State} {op : BitVec 3} {a0 a1 : Byte}

/-- The fields a host operation may write. -/
theorem Effect.host_frame (he : Effect (.hostOp op a0 a1) s t) :
    t = { s with
      kf := { s.kf with tail := t.kf.tail }
      bm := t.bm, leds := t.leds, hbCount := t.hbCount
      txqLen := t.txqLen, txq0 := t.txq0, txq1 := t.txq1, fgWait := t.fgWait
      pendValid := t.pendValid, pendRpt := t.pendRpt, resp := t.resp } := by
  cases he <;> rfl

theorem startSeq_txqLen_ne_zero (b0 : Byte) (b1 : Option Byte) (wait : Bool) (rpt : Option Report) (s : State) :
    (startSeq b0 b1 wait rpt s).txqLen ≠ 0 := by
  rw [startSeq_txqLen]; split <;> decide

/-- A host operation answers at once, or queues bytes, or finds the port busy (R113 to R115). -/
theorem Effect.host_answers_or_queues (he : Effect (.hostOp op a0 a1) s t) :
    (∃ r, t.resp = s.resp ++ [r] ∧ t.txqLen = s.txqLen) ∨
    (t.resp = s.resp ∧ t.txqLen ≠ 0 ∧ s.fgBusy = false) ∨ (t = s ∧ s.fgBusy = true) := by
  cases he with
  | hostWait hb => exact .inr (.inr ⟨rfl, hb⟩)
  | avail | readIdle | readAnswer | reservedOp => exact .inl ⟨_, rfl, rfl⟩
  | readLock hp | hostWrite hp | hostWriteWait hp | resetKbd hp | setTypematic hp | setLeds hp =>
    exact .inr (.inl ⟨rfl, startSeq_txqLen_ne_zero _ _ _ _ _, (fgBusy_eq_false_iff s).2 hp⟩)

end

/-- Settles O46: every host row is an effect of a host step, which writes only the fields of `Effect.host_frame`. -/
theorem hostFrame : Obligations.HostFrame := by
  intro s t a0 a1 i hi h
  obtain ⟨op, he⟩ := exists_hostOp_effect hi h
  have frame := he.host_frame
  refine ⟨?_, ?_, ?_, ?_, ?_, ?_, ?_, ?_, ?_, ?_, ?_, ?_, ?_, ?_, ?_, ?_, he.host_answers_or_queues⟩ <;> rw [frame]

end Sys2Proof.Machine

/-! ### What no FG step touches (R17, R127 to R130) -/

namespace Sys2Proof.Machine

/-- The instruction an offer decodes to reaches an effect of that offer: it is the step of a state in which the offer is
placed. -/
theorem effect_of_exec_fetch {e : Event} {s t : State} (h : exec (fetch e s) s = .next t) : Effect e s t :=
  step_effect (s := { s with events := e :: s.events }) h

/-- The six FG rows are steps of FG; a command-byte row is the `FG_RTS` that takes its byte (R68). -/
theorem exists_fg_effect {s t : State} {i : Instr}
    (hi : i ∈ [Instr.fgRts, .fgPrime, .fgDone, .kbdCmdReset, .kbdCmdTypematic, .kbdCmdSetLeds])
    (h : exec i s = .next t) : ∃ e ∈ [Event.fgRts, .fgPrime, .fgDone], Effect e s t := by
  simp only [List.mem_cons, List.not_mem_nil, or_false] at hi
  rcases hi with rfl | rfl | rfl | rfl | rfl | rfl
  · exact ⟨.fgRts, by simp, rts_effect h⟩
  · exact ⟨.fgPrime, by simp, effect_of_exec_fetch h⟩
  · exact ⟨.fgDone, by simp, effect_of_exec_fetch h⟩
  all_goals exact ⟨.fgRts, by simp, rts_effect h⟩

section
variable {s t : State}

/-- The fields an FG step may write. -/
theorem Effect.fg_frame {e : Event} (he : Effect e s t) (hfg : e ∈ [Event.fgRts, .fgPrime, .fgDone]) :
    t = { s with
      leState := t.leState, current := t.current, parity := t.parity, txbuf := t.txbuf, rts := t.rts
      attached := t.attached, clkDriveLow := t.clkDriveLow, dataDriveLow := t.dataDriveLow
      fgPhase := t.fgPhase, txqLen := t.txqLen, txq0 := t.txq0
      pendValid := t.pendValid, resp := t.resp } := by
  cases he with
  | primeThenIdle => rw [finishIfLast_frame]; rfl
  | done => rw [finishIfLast_frame]
  | rtsWait | rts | primeWait | primeThenWait | doneWait => rfl
  | _ => simp at hfg

/-- An FG step appends at most one response (R128 to R130). -/
theorem Effect.fg_resp {e : Event} (he : Effect e s t) (hfg : e ∈ [Event.fgRts, .fgPrime, .fgDone]) :
    t.resp = s.resp ∨ ∃ r, t.resp = s.resp ++ [r] := by
  cases he with
  | primeThenIdle | done => exact finishIfLast_resp _
  | rtsWait | rts | primeWait | primeThenWait | doneWait => exact .inl rfl
  | _ => simp at hfg

/-- The fields `FG_PRIME` may write (R128). -/
theorem Effect.fgPrime_frame (he : Effect .fgPrime s t) :
    t = { s with
      leState := t.leState, current := t.current, parity := t.parity, rts := t.rts
      attached := t.attached, clkDriveLow := t.clkDriveLow
      fgPhase := t.fgPhase, pendValid := t.pendValid, resp := t.resp } := by
  cases he with
  | primeThenIdle => rw [finishIfLast_frame]; rfl
  | primeWait | primeThenWait => rfl

/-- The fields `FG_DONE` may write (R129). -/
theorem Effect.fgDone_frame (he : Effect .fgDone s t) :
    t = { s with fgPhase := t.fgPhase, pendValid := t.pendValid, resp := t.resp } := by
  cases he with
  | done => rw [finishIfLast_frame]
  | doneWait => rfl

end

/-- Settles O56: every FG row is an effect of an FG step, and the three frame equations say what such an effect writes. -/
theorem sequencerFrame : Obligations.SequencerFrame := by
  intro s t i hi h
  obtain ⟨e, hfg, he⟩ := exists_fg_effect hi h
  have frame := he.fg_frame hfg
  refine ⟨?_, ?_, ?_, ?_, ?_, ?_, ?_, ?_, ?_, ?_, ?_, ?_, he.fg_resp hfg, ?done, ?prime⟩
  case done =>
    rintro rfl
    rw [(effect_of_exec_fetch (e := .fgDone) h).fgDone_frame]
    exact ⟨rfl, rfl, rfl, rfl, rfl, rfl, rfl, rfl⟩
  case prime =>
    rintro rfl
    rw [(effect_of_exec_fetch (e := .fgPrime) h).fgPrime_frame]
    exact ⟨rfl, rfl, rfl, rfl⟩
  all_goals rw [frame]

end Sys2Proof.Machine

/-! ### The writers of the rings (R27, R29, R50, R92)

The producer of a ring writes its slots and its head, the consumer its tail. Each effect either leaves the part as it
was or belongs to the step named. -/

namespace Sys2Proof.Machine

@[simp] theorem finishIfLast_bf (s : State) : (finishIfLast s).bf = s.bf := by rw [finishIfLast_frame]
@[simp] theorem finishIfLast_kf (s : State) : (finishIfLast s).kf = s.kf := by rw [finishIfLast_frame]

section
variable {e : Event} {s t : State}

/-- Only an `EDGE` writes the producer's side of BF (R27). -/
theorem Effect.bf_head_slots_eq (he : Effect e s t) (hedge : ∀ d, e ≠ .edge d) :
    t.bf.head = s.bf.head ∧ t.bf.slots = s.bf.slots := by
  cases he with
  | rxStop => exact absurd rfl (hedge _)
  | primeThenIdle | done => rw [finishIfLast_bf]; exact ⟨rfl, rfl⟩
  | _ => exact ⟨rfl, rfl⟩

/-- Only a `DEC_STEP` writes the consumer's side of BF (R27). -/
theorem Effect.bf_tail_eq (he : Effect e s t) (hdec : e ≠ .decStep) : t.bf.tail = s.bf.tail := by
  cases he with
  | decMove | decKeep | decStore | keyOverflow | decodePrefix | decodePause => exact absurd rfl hdec
  | primeThenIdle | done => exact congrArg Ring.tail (finishIfLast_bf _)
  | _ => rfl

/-- Only a `DEC_STEP` writes the producer's side of KF (R29). -/
theorem Effect.kf_head_slots_eq (he : Effect e s t) (hdec : e ≠ .decStep) :
    t.kf.head = s.kf.head ∧ t.kf.slots = s.kf.slots := by
  cases he with
  | decStore => exact absurd rfl hdec
  | primeThenIdle | done => rw [finishIfLast_kf]; exact ⟨rfl, rfl⟩
  | _ => exact ⟨rfl, rfl⟩

/-- Only a `READ_REPORT` writes the consumer's side of KF (R29). -/
theorem Effect.kf_tail_eq (he : Effect e s t) (hread : ∀ a0 a1, e ≠ .hostOp 0b001#3 a0 a1) :
    t.kf.tail = s.kf.tail := by
  cases he with
  | readAnswer | readLock => exact absurd rfl (hread _ _)
  | primeThenIdle | done => exact congrArg Ring.tail (finishIfLast_kf _)
  | _ => rfl

end

/-- Settles O15: the writers of each ring's two sides are read off the effects of the step offered. -/
theorem ringPointersHaveOneWriter : Obligations.RingPointersHaveOneWriter := by
  intro s t h
  obtain ⟨evs, pos, he⟩ := exists_step_effect h
  exact ⟨he.bf_head_slots_eq, fun hdec => ⟨he.bf_tail_eq hdec, he.kf_head_slots_eq hdec⟩, he.kf_tail_eq⟩

end Sys2Proof.Machine

/-! ### What a bitmap and a table hold (R42, R43, R94, R133) -/

namespace Sys2Proof.Machine

/-- The mask of a bitmap write has the one bit set. -/
theorem getLsbD_bitmapMask (k j : Byte) : (1#256 <<< k.toNat).getLsbD j.toNat = decide (j = k) := by
  have hk : k.toNat < 256 := k.isLt
  rw [← BitVec.twoPow_eq, BitVec.getLsbD_twoPow]
  simp [hk, BitVec.toNat_inj, eq_comm]

/-- Setting takes the union with the mask, clearing the meet with its complement. -/
theorem bmRead_bmWrite (bm : Bitmap) (k j : Byte) (v : Bool) :
    bmRead (bmWrite bm k v) j = if j = k then v else bmRead bm j := by
  have hj : j.toNat < 256 := j.isLt
  cases v with
  | true =>
    rw [bmWrite, if_pos rfl, bmRead, BitVec.getLsbD_or, getLsbD_bitmapMask]
    by_cases h : j = k <;> simp [h, bmRead]
  | false =>
    rw [bmWrite, if_neg Bool.false_ne_true, bmRead, BitVec.getLsbD_and, BitVec.getLsbD_not, getLsbD_bitmapMask]
    by_cases h : j = k <;> simp [h, hj, bmRead]

/-- Settles O47, by the equation of a read after a write. -/
theorem bitmapWriteHitsOneBit : Obligations.BitmapWriteHitsOneBit := bmRead_bmWrite

section
variable {p : Params} {b k : Byte} {before after : Table}

/-- At a listed index the first entry counts, and `KC_INVALID` there means unmapped (R94). -/
theorem lookup_listed (h : ∀ e ∈ before, e.1 ≠ b) :
    lookup p (before ++ (b, k) :: after) b = if k = p.kcInvalid then none else some k := by
  rw [lookup, tableEntry_listed h]

theorem lookup_unlisted {t : Table} (h : ∀ e ∈ t, e.1 ≠ b) : lookup p t b = none := by
  rw [lookup, tableEntry_unlisted h]
  exact if_pos rfl

theorem transformKey_listed (ht : p.transform = before ++ (b, k) :: after) (h : ∀ e ∈ before, e.1 ≠ b) :
    transformKey p b = k := by
  rw [transformKey, ht, tableEntry_listed h]

/-- The hook is the identity on a keycode it does not list (R43). -/
theorem transformKey_unlisted (h : ∀ e ∈ p.transform, e.1 ≠ b) : transformKey p b = b :=
  tableEntry_unlisted h

end

/-- Settles O60: a table and the hook each at an index listed and at one not listed. -/
theorem tablesReadTheirEntries : Obligations.TablesReadTheirEntries := by
  intro p b
  refine ⟨?_, fun _ => lookup_unlisted, fun _ _ _ => transformKey_listed, transformKey_unlisted⟩
  rintro _ before after k rfl h
  exact lookup_listed h

end Sys2Proof.Machine

/-! ### Decoding and encoding are inverse (R57, R59, R61, R68)

Said first: the instruction of each key, format by format. Decoding an encoded instruction reads these equations at the
instruction's own key, encoding a decoded one reads them at every key. -/

namespace Sys2Proof

/-! #### The rows for "other" bytes, and the bytes 0xE0 and 0xF0 -/

theorem wellFormed_dMake_iff {b : Byte} :
    (Instr.dMake b).wellFormed = true ↔ b ≠ 0xE0 ∧ b ≠ 0xF0 ∧ b ≠ 0xE1 := by
  simp [Instr.wellFormed, isStartByte, isPrefixByte, and_assoc]

theorem wellFormed_dExtMake_iff {b : Byte} : (Instr.dExtMake b).wellFormed = true ↔ b ≠ 0xF0 ∧ b ≠ 0xE0 := by
  simp [Instr.wellFormed, isPrefixByte, and_comm]

theorem wellFormed_dBreak_iff {b : Byte} : (Instr.dBreak b).wellFormed = true ↔ ¬ isPrefixByte b = true := by
  simp [Instr.wellFormed]

theorem wellFormed_dExtBreak_iff {b : Byte} : (Instr.dExtBreak b).wellFormed = true ↔ ¬ isPrefixByte b = true := by
  simp [Instr.wellFormed]

theorem wellFormed_dPauseErr_iff {second : Bool} {b : Byte} :
    (Instr.dPauseErr second b).wellFormed = true ↔ b ≠ 0x14 ∧ b ≠ 0xE1 ∧ b ≠ 0xF0 ∧ b ≠ 0x77 := by
  simp [Instr.wellFormed, isPauseByte, and_assoc]

@[simp] theorem isPrefixByte_prefixOf (p : Bool) : isPrefixByte (prefixOf p) = true := by cases p <;> rfl

@[simp] theorem prefixOf_getElem_four (p : Bool) : (prefixOf p)[4] = p := by cases p <;> rfl

/-- Bit 4 tells 0xE0 and 0xF0 apart (R59). -/
theorem prefixOf_of_isPrefixByte {b : Byte} (h : isPrefixByte b = true) : prefixOf (b.getLsbD 4) = b := by
  obtain rfl | rfl : b = 0xE0 ∨ b = 0xF0 := by simpa [isPrefixByte] using h
  · rfl
  · rfl

/-! #### The decoder's rows, by decoder state (R59) -/

section
variable (b : Byte)

theorem decodeDec_waitStart : decodeDec (decKey dWaitStart b) =
    if b = 0xE0 then .dExtPrefix else if b = 0xF0 then .dBrkPrefix else if b = 0xE1 then .dPauseLead
    else .dMake b := by
  simp [decodeDec]

theorem decodeDec_waitExtended : decodeDec (decKey dWaitExtended b) =
    if b = 0xF0 then .dExtBrkPrefix else if b = 0xE0 then .dPrefixErrExt else .dExtMake b := by
  simp [decodeDec]

/-- The two break states, `D.WaitBreak` and `D.WaitExtendedBreak`. -/
theorem decodeDec_break (ext : Bool) : decodeDec (decKey (0b01#2 ++ BitVec.ofBool ext) b) =
    if isPrefixByte b then .dPrefixErrBrk ext (b.getLsbD 4) else if ext then .dExtBreak b else .dBreak b := by
  cases ext <;> simp [decodeDec]

/-- The two Pause states, `D.WaitFirst77` and `D.WaitSecond77`. -/
theorem decodeDec_pause (second : Bool) : decodeDec (decKey (0b10#2 ++ BitVec.ofBool second) b) =
    if b = 0x14 then .dPauseFiller14 second else if b = 0xE1 then .dPauseFillerE1 second
    else if b = 0xF0 then .dPauseFillerF0 second
    else if b = 0x77 then if second then .dPause77B else .dPause77A
    else .dPauseErr second b := by
  cases second <;> simp [decodeDec]

theorem decodeDec_reserved (x : Bool) : decodeDec (decKey (0b11#2 ++ BitVec.ofBool x) b) = .reservedDstate x b := by
  cases x <;> simp [decodeDec]

end

/-- The eight codes of `dstate`, paired as the rows of R59 pair them. -/
theorem dstate_cases (ds : BitVec 3) :
    ds = dWaitStart ∨ ds = dWaitExtended ∨ (∃ ext, ds = 0b01#2 ++ BitVec.ofBool ext) ∨
    (∃ second, ds = 0b10#2 ++ BitVec.ofBool second) ∨ ∃ x, ds = 0b11#2 ++ BitVec.ofBool x := by
  revert ds; decide

/-! #### Encoding what a key decodes to -/

theorem encode_decodeEdge (w : BitVec 6) :
    (decodeEdge w).wellFormed = true ∧ encode (decodeEdge w) = .edge w := by
  revert w; decide

/-- A word is its high part followed by its low part. -/
theorem high_append_low {n m : Nat} (w : BitVec (n + m)) : w.extractLsb' m n ++ w.extractLsb' 0 m = w := by
  rw [BitVec.extractLsb'_append_extractLsb'_eq_extractLsb' (Nat.zero_add m).symm, BitVec.extractLsb'_eq_self]

theorem exists_decKey (w : BitVec 11) : ∃ ds b, decKey ds b = w := ⟨_, _, high_append_low (n := 3) (m := 8) w⟩

theorem encode_decodeDec_decKey (ds : BitVec 3) (b : Byte) :
    (decodeDec (decKey ds b)).wellFormed = true ∧ encode (decodeDec (decKey ds b)) = .decByte (decKey ds b) := by
  obtain rfl | rfl | ⟨ext, rfl⟩ | ⟨second, rfl⟩ | ⟨x, rfl⟩ := dstate_cases ds
  · rw [decodeDec_waitStart]
    split_ifs with h1 h2 h3
    · rw [h1]; exact ⟨rfl, rfl⟩
    · rw [h2]; exact ⟨rfl, rfl⟩
    · rw [h3]; exact ⟨rfl, rfl⟩
    · exact ⟨wellFormed_dMake_iff.2 ⟨h1, h2, h3⟩, rfl⟩
  · rw [decodeDec_waitExtended]
    split_ifs with h1 h2
    · rw [h1]; exact ⟨rfl, rfl⟩
    · rw [h2]; exact ⟨rfl, rfl⟩
    · exact ⟨wellFormed_dExtMake_iff.2 ⟨h1, h2⟩, rfl⟩
  · rw [decodeDec_break]
    split_ifs with h1 h2
    · exact ⟨rfl, congrArg (fun b => Key.decByte (decKey _ b)) (prefixOf_of_isPrefixByte h1)⟩
    · exact ⟨wellFormed_dExtBreak_iff.2 h1, by rw [h2]; rfl⟩
    · exact ⟨wellFormed_dBreak_iff.2 h1, by rw [Bool.eq_false_iff.2 h2]; rfl⟩
  · rw [decodeDec_pause]
    split_ifs with h1 h2 h3 h4 h5
    · rw [h1]; exact ⟨rfl, rfl⟩
    · rw [h2]; exact ⟨rfl, rfl⟩
    · rw [h3]; exact ⟨rfl, rfl⟩
    · rw [h4, h5]; exact ⟨rfl, rfl⟩
    · rw [h4, Bool.eq_false_iff.2 h5]; exact ⟨rfl, rfl⟩
    · exact ⟨wellFormed_dPauseErr_iff.2 ⟨h1, h2, h3, h4⟩, rfl⟩
  · rw [decodeDec_reserved]
    exact ⟨rfl, rfl⟩

theorem exists_hostKey (w : BitVec 19) : ∃ op a0 a1, hostKey op a0 a1 = w :=
  ⟨_, _, _, (congrArg (· ++ _) (high_append_low (n := 3) (m := 8) _)).trans (high_append_low (n := 11) (m := 8) w)⟩

/-- The eight op codes (R61). -/
theorem op_cases (op : BitVec 3) : op = 0b000#3 ∨ op = 0b001#3 ∨ op = 0b010#3 ∨ op = 0b011#3 ∨ op = 0b100#3 ∨
    op = 0b101#3 ∨ op = 0b110#3 ∨ op = 0b111#3 := by
  revert op; decide

theorem encode_decodeHost_hostKey (op : BitVec 3) (a0 a1 : Byte) :
    (decodeHost (hostKey op a0 a1)).wellFormed = true ∧
    encode (decodeHost (hostKey op a0 a1)) = .hostReq (hostKey op a0 a1) := by
  unfold decodeHost
  simp only [hostKey_op, hostKey_a0, hostKey_a1]
  obtain rfl | rfl | rfl | rfl | rfl | rfl | rfl | rfl := op_cases op
  all_goals exact ⟨rfl, rfl⟩

theorem encode_of_decodeKbd {b : Byte} {i : Instr} (h : decodeKbd b = some i) :
    i.wellFormed = true ∧ encode i = .kbdCmd b := by
  unfold decodeKbd at h
  split_ifs at h with h1 h2 h3 <;> cases h <;> simp [Instr.wellFormed, encode, *]

/-- Every key that decodes is spelt by the instruction it decodes to. -/
theorem encode_of_decode {k : Key} {i : Instr} (h : decode k = .ok i) : i.wellFormed = true ∧ encode i = k := by
  cases k with
  | edge w => cases h; exact encode_decodeEdge w
  | decByte w =>
    obtain ⟨ds, b, rfl⟩ := exists_decKey w
    cases h; exact encode_decodeDec_decKey ds b
  | hostReq w =>
    obtain ⟨op, a0, a1, rfl⟩ := exists_hostKey w
    cases h; exact encode_decodeHost_hostKey op a0 a1
  | kbdCmd b => exact encode_of_decodeKbd (Machine.decode_kbdCmd_eq_ok_iff.1 h)
  | edgeDetached | decStep | fgRts | fgPrime | fgDone | tick => cases h; exact ⟨rfl, rfl⟩

theorem exists_decode_kbdCmd_error_iff {b : Byte} :
    (∃ e, decode (.kbdCmd b) = .error e) ↔ decodeKbd b = none := by
  cases h : decodeKbd b with
  | none => exact ⟨fun _ => rfl, fun _ => ⟨.notACommandByte, by simp [decode, h]⟩⟩
  | some i => simp [decode, h]

/-- Settles O3: by format, the instruction decoded spells its key; the command bytes are the one partial format. -/
theorem encodeAfterDecode : Obligations.EncodeAfterDecode := by
  refine fun k => ⟨fun _ => encode_of_decode, ?_⟩
  cases k with
  | kbdCmd b => simp [exists_decode_kbdCmd_error_iff, Machine.decodeKbd_eq_none_iff]
  | _ => simp [decode]

/-! #### Decoding what an instruction encodes to -/

/-- Settles O2: each instruction's key is read by the decoder's equation for that key. -/
theorem decodeAfterEncode : Obligations.DecodeAfterEncode := by
  intro i h
  cases i with
  | rxStart d | rxParity d | rxStop d | txParity d | txStop d | txAck d | reservedLe00011 d | reservedLe00111 d =>
    clear h; revert d; decide
  | rxData n d | txData n d | reservedLe10 n d => clear h; revert n d; decide
  | dExtPrefix | dBrkPrefix | dPauseLead => exact congrArg Except.ok (decodeDec_waitStart _)
  | dMake b =>
    obtain ⟨h1, h2, h3⟩ := wellFormed_dMake_iff.1 h
    exact congrArg Except.ok (by rw [decodeDec_waitStart, if_neg h1, if_neg h2, if_neg h3])
  | dExtBrkPrefix | dPrefixErrExt => exact congrArg Except.ok (decodeDec_waitExtended _)
  | dExtMake b =>
    obtain ⟨h1, h2⟩ := wellFormed_dExtMake_iff.1 h
    exact congrArg Except.ok (by rw [decodeDec_waitExtended, if_neg h1, if_neg h2])
  | dPrefixErrBrk ext p => simp [decode, encode, decodeDec_break]
  | dBreak b => exact congrArg Except.ok ((decodeDec_break b false).trans (if_neg (wellFormed_dBreak_iff.1 h)))
  | dExtBreak b => exact congrArg Except.ok ((decodeDec_break b true).trans (if_neg (wellFormed_dExtBreak_iff.1 h)))
  | dPauseFiller14 second | dPauseFillerE1 second | dPauseFillerF0 second =>
    exact congrArg Except.ok (decodeDec_pause _ second)
  | dPause77A => exact congrArg Except.ok (decodeDec_pause 0x77 false)
  | dPause77B => exact congrArg Except.ok (decodeDec_pause 0x77 true)
  | dPauseErr second b =>
    obtain ⟨h1, h2, h3, h4⟩ := wellFormed_dPauseErr_iff.1 h
    exact congrArg Except.ok (by rw [decodeDec_pause, if_neg h1, if_neg h2, if_neg h3, if_neg h4])
  | reservedDstate x b => exact congrArg Except.ok (decodeDec_reserved b x)
  | avail | readReport | write | writeWait | resetKbd | setTypematic | setLeds | reservedOp111 =>
    simp [decode, encode, decodeHost]
  | edgeDetached | decStep | fgRts | fgPrime | fgDone | tick | kbdCmdReset | kbdCmdTypematic | kbdCmdSetLeds => rfl

end Sys2Proof

/-! ### A primed byte on the line (R54, R55, R77 to R80, R84)

Each send edge has its equation; the data edges are followed by one invariant, indexed by the number of bits sent. -/

namespace Sys2Proof.Machine

/-- A run's last step. -/
theorem run_succ_last {k : Nat} {s t u : State} (h : run k s = .next t) (hu : step t = .next u) :
    run (k + 1) s = .next u := by
  rw [run_add h, run_succ_next hu, run_zero]

/-! #### The send edges -/

section
variable {s : State} {d : Bool} {evs : List Event}

/-- A placed edge on an attached line performs its row's operation on the state with the pulse counted (R71). -/
theorem step_edge_row {i : Instr} {f : State → State} (ha : s.attached = true) (he : s.events = .edge d :: evs)
    (hrow : decodeEdge (edgeKey s.leState d) = i) (hi : exec i = edgeStep f) :
    step s = .next (f (countPulse { s with events := evs })) := by
  rw [step_edge ha he, hrow, hi]
  exact edgeStep_attached ha

theorem step_txData {n : BitVec 3} (ha : s.attached = true) (hl : s.leState = leWaitSendData n)
    (he : s.events = .edge d :: evs) : step s = .next { countPulse s with
      dataDriveLow := !s.current.getLsbD 0
      parity := Bool.xor s.parity (s.current.getLsbD 0)
      current := shiftIn false s.current
      leState := nextTxData n
      events := evs } := by
  obtain ⟨-, -, -, -, -, -, -, row⟩ := decodeEdge_rows d
  exact step_edge_row ha he (by rw [hl, row]) (by funext; rw [exec, execTxData])

theorem step_txParity (ha : s.attached = true) (hl : s.leState = leWaitSendParity) (he : s.events = .edge d :: evs) :
    step s = .next { countPulse s with dataDriveLow := !s.parity, leState := leWaitSendStop, events := evs } := by
  obtain ⟨-, -, -, row, -⟩ := decodeEdge_rows d
  exact step_edge_row ha he (by rw [hl, row]) (by funext; rw [exec, execTxParity])

theorem step_txStop (ha : s.attached = true) (hl : s.leState = leWaitSendStop) (he : s.events = .edge d :: evs) :
    step s = .next { countPulse s with dataDriveLow := false, leState := leWaitSendAck, events := evs } := by
  obtain ⟨-, -, -, -, row, -⟩ := decodeEdge_rows d
  exact step_edge_row ha he (by rw [hl, row]) (by funext; rw [exec, execTxStop])

theorem step_txAck (ha : s.attached = true) (hl : s.leState = leWaitSendAck) (he : s.events = .edge d :: evs) :
    step s = .next { countPulse s with
      leState := leWaitStart, errlog := s.errlog ++ (if d then [0x4#4] else []), events := evs } := by
  obtain ⟨-, -, -, -, -, row, -⟩ := decodeEdge_rows d
  rw [step_edge_row ha he (by rw [hl, row]) (by funext; rw [exec, execTxAck])]
  cases d
  · simp [countPulse]
  · rfl

end

/-! #### The data bits -/

/-- The parity register after the `k` least significant bits of `b`, from its value 1 at the start (R77, R82). -/
def parityAfter (b : Byte) : Nat → Bool
  | 0 => true
  | k + 1 => Bool.xor (parityAfter b k) (b.getLsbD k)

/-- After all eight bits it is the odd parity bit (R55). -/
theorem parityAfter_eight (b : Byte) : parityAfter b 8 = oddParity b := by revert b; decide

/-- `le_state` after `k` data bits sent (R56, R77). -/
def sendStateAfter (k : Nat) : BitVec 5 := if k < 8 then leWaitSendData (BitVec.ofNat 3 k) else leWaitSendParity

theorem nextTxData_sendStateAfter : ∀ k < 8, nextTxData (BitVec.ofNat 3 k) = sendStateAfter (k + 1) := by decide

/-- `t` is `s` after the first `k` data bits of `b` were sent, with the offers `evs` left. -/
structure BitsSent (s : State) (b : Byte) (k : Nat) (evs : List Event) (t : State) : Prop where
  leState_eq : t.leState = sendStateAfter k
  attached_eq : t.attached = true
  current_eq : t.current = b >>> k
  parity_eq : t.parity = parityAfter b k
  events_eq : t.events = evs
  bf_eq : t.bf = s.bf
  errlog_eq : t.errlog = s.errlog

/-- One more data edge drives the next bit (R77). -/
theorem BitsSent.step {s t : State} {b : Byte} {k : Nat} {d : Bool} {evs : List Event} (hk : k < 8)
    (h : BitsSent s b k (.edge d :: evs) t) :
    ∃ u, step t = .next u ∧ BitsSent s b (k + 1) evs u ∧ u.dataDriveLow = !b.getLsbD k := by
  have bit : t.current.getLsbD 0 = b.getLsbD k := by simp [h.current_eq]
  refine ⟨_, step_txData h.attached_eq (h.leState_eq.trans (if_pos hk)) h.events_eq, ?_, by rw [bit]⟩
  exact {
    leState_eq := nextTxData_sendStateAfter k hk
    attached_eq := h.attached_eq
    current_eq := by simp [shiftIn_eq, h.current_eq, BitVec.shiftRight_add]
    parity_eq := by rw [bit, h.parity_eq]; rfl
    events_eq := rfl
    bf_eq := h.bf_eq
    errlog_eq := h.errlog_eq }

/-- The first `k` data edges send the first `k` bits, whatever is sampled (R84). -/
theorem exists_run_bitsSent {s : State} {b : Byte} {ds : List Bool} {rest : List Event}
    (h : BitsSent s b 0 (ds.map Event.edge ++ rest) s) {k : Nat} (hk : k ≤ 8) (hlen : k ≤ ds.length) :
    ∃ t, run k s = .next t ∧ BitsSent s b k ((ds.drop k).map Event.edge ++ rest) t := by
  induction k with
  | zero => exact ⟨s, rfl, h⟩
  | succ k ih =>
    obtain ⟨t, ht, sent⟩ := ih (by omega) (by omega)
    rw [List.drop_eq_getElem_cons hlen] at sent
    obtain ⟨u, hu, sent', -⟩ := sent.step hk
    exact ⟨u, run_succ_last ht hu, sent'⟩

/-- Settles O29: the eight data edges by the invariant, then the parity, stop and acknowledgment edges in turn. -/
theorem sendDrivesByteThenParity : Obligations.SendDrivesByteThenParity := by
  intro s b ds ack rest hl ha hc hp hlen he
  have start : BitsSent s b 0 (ds.map Event.edge ++ ([.edge ack] ++ rest)) s :=
    { leState_eq := hl, attached_eq := ha, current_eq := by simp [hc], parity_eq := hp, events_eq := by simpa using he,
      bf_eq := rfl, errlog_eq := rfl }
  refine ⟨fun k hk => ?_, ?_⟩
  · obtain ⟨t, ht, sent⟩ := exists_run_bitsSent start hk.le (by omega)
    rw [List.drop_eq_getElem_cons (by omega)] at sent
    obtain ⟨u, hu, -, line⟩ := sent.step hk
    exact ⟨u, run_succ_last ht hu, line⟩
  · obtain ⟨t, ht, sent⟩ := exists_run_bitsSent start le_rfl (by omega)
    obtain ⟨d9, d10, hd⟩ : ∃ d9 d10, ds.drop 8 = [d9, d10] := List.length_eq_two.1 (by simp [hlen])
    rw [hd] at sent
    have parity := step_txParity sent.attached_eq sent.leState_eq sent.events_eq
    have run9 := run_succ_last ht parity
    have run10 := run_succ_last run9 (step_txStop sent.attached_eq rfl rfl)
    have run11 := run_succ_last run10 (step_txAck sent.attached_eq rfl rfl)
    refine ⟨⟨_, run9, ?_⟩, ⟨_, run10, rfl, rfl⟩, _, run11, rfl, rfl, sent.bf_eq, rfl, ?_⟩
    · rw [← parityAfter_eight, ← sent.parity_eq]
    · rw [← sent.errlog_eq]; rfl

end Sys2Proof.Machine

/-! ### A step raises at most one error, which leaves its owner idle (R67, R139 to R141) -/

namespace Sys2Proof.Machine

/-- The whole state after each effect that raises an error: LE's five leave it in `WaitStart` with the edge counted, the
decoder's three leave it in `D.WaitStart` with the byte popped. -/
theorem Effect.errlog_cases {e : Event} {s t : State} (he : Effect e s t) :
    t.errlog = s.errlog ∨
    (∃ c : BitVec 4, (1 ≤ c.toNat ∧ c.toNat ≤ 5) ∧
      t = { countPulse s with leState := leWaitStart, errlog := s.errlog ++ [c] }) ∨
    ∃ c : BitVec 4, (6 ≤ c.toNat ∧ c.toNat ≤ 8) ∧
      t = { popBf s with dstate := dWaitStart, errlog := s.errlog ++ [c] } := by
  cases he with
  | badStart _ hl => exact .inr (.inl ⟨errCode .badStart, by decide, by rw [← hl]; rfl⟩)
  | badParity | byteOverflow | badStop | invalidAck => exact .inr (.inl ⟨_, by decide, rfl⟩)
  | keyOverflow | decodePrefix | decodePause => exact .inr (.inr ⟨_, by decide, rfl⟩)
  | primeThenIdle | done => rw [finishIfLast_frame]; exact .inl rfl
  | _ => exact .inl rfl

/-- Settles O12: each effect of the step offered raises nothing, or one error of LE or of the decoder. -/
theorem errorLeavesOwnerIdle : Obligations.ErrorLeavesOwnerIdle := by
  intro s t h
  obtain ⟨evs, pos, he⟩ := exists_step_effect h
  obtain hn | ⟨c, ⟨lo, hi⟩, rfl⟩ | ⟨c, ⟨lo, hi⟩, rfl⟩ := he.errlog_cases
  · exact .inl hn
  · exact .inr ⟨c, rfl, .inl ⟨lo, hi, rfl⟩⟩
  · exact .inr ⟨c, rfl, .inr ⟨lo, hi, rfl⟩⟩

end Sys2Proof.Machine

/-! ### The reserved codes (R56, R58, R62) -/

namespace Sys2Proof.Machine

/-- `DEC_STEP` with a byte to consume refuses a reserved `dstate` (R58). -/
theorem execDecStep_reserved {s : State} (hc : 0 < s.bfCount) (hd : s.dstate.extractLsb' 1 2 = 0b11#2) :
    execDecStep s = .refused .reservedDstate := by
  have codes : ∀ ds : BitVec 3, ds.extractLsb' 1 2 = 0b11#2 → ds = 0b110#3 ∨ ds = 0b111#3 := by decide
  obtain h | h := codes _ hd <;> simp [execDecStep, hc.ne', h, execReservedDstate]

/-- Settles O24: the rows of a reserved code answer by definition, and each reader of `fg_phase` is a host or an FG
step, which refuses the reserved phase before anything else. -/
theorem reservedCodesAreRefused : Obligations.ReservedCodesAreRefused := by
  intro s n d x b a0 a1
  refine ⟨rfl, rfl, rfl, rfl, execDecStep_reserved, fun hp i hi => ?_⟩
  fin_cases hi <;> exact if_pos hp -- the test of the phase in `fgStep` and `hostStep`

end Sys2Proof.Machine

/-! ### The command bytes (R68, R127) -/

namespace Sys2Proof.Machine

/-- An enabled `FG_RTS`, whichever byte it sends, begins the request-to-send (R127). -/
theorem fgStep_rtsEnabled {s : State} (hp : s.fgPhase = fgIdle) (hl : s.txqLen ≠ 0) (f : State → State) :
    fgStep s.rtsEnabled f s = .next (f s) := by
  rw [(rtsEnabled_iff s).2 ⟨hp, hl⟩, fgStep_enabled (by rw [hp]; decide)]

/-- Settles O52: each command row is `beginSend` of its byte, and `FG_RTS` is `beginSend` of the byte queued. -/
theorem commandBytesAreSentByRts : Obligations.CommandBytesAreSentByRts := by
  intro s hp hl
  have send (b : Byte) : fgStep s.rtsEnabled (beginSend b) s = .next (beginSend b s) := fgStep_rtsEnabled hp hl _
  have same {b : Byte} (hb : s.txq0 = b) : fgStep s.rtsEnabled (beginSend b) s = exec .fgRts s := by rw [← hb]; rfl
  simp only [List.forall_mem_cons]
  exact ⟨⟨rfl, send _, same⟩, ⟨rfl, send _, same⟩, ⟨rfl, send _, same⟩, List.forall_mem_nil _⟩

end Sys2Proof.Machine

/-! ### Words of the opcode table (R57, R59, R61, R68) -/

namespace Sys2Proof

/-- Settles O1: the decoder evaluated on the twelve words. -/
theorem specWordsDecode : Obligations.SpecWordsDecode := by
  unfold Obligations.SpecWordsDecode
  decide

end Sys2Proof

/-! ### The edge rows (R71 to R80)

Every edge row is an `edgeStep`, which answers under one test of `attached`; each result below is the row's operation
written out on the state with the pulse counted. -/

namespace Sys2Proof.Machine

/-- The answer of an edge row on an attached line (R71), as `edgeStep` gives it. -/
theorem edge_answer {s t u : State} (ha : s.attached = true) (h : t = u) :
    (Host.Outcome.next (if s.attached then t else s) : Result) = .next u := by
  rw [if_pos ha, h]

theorem xor_eq_ite_not (p d : Bool) : Bool.xor p d = if d then !p else p := by cases d <;> simp

/-- Settles O17, by the row's operation at each sampled bit. -/
theorem rxStartResult : Obligations.RxStartResult :=
  ⟨fun d => decodeAfterEncode (.rxStart d) rfl, fun _ ha => ⟨edge_answer ha rfl, edge_answer ha rfl⟩⟩

/-- Settles O18: the row shifts by `shiftIn`, toggles by exclusive or and moves on by `nextRxData`. -/
theorem rxDataResult : Obligations.RxDataResult := by
  refine ⟨fun n d => decodeAfterEncode (.rxData n d) rfl, fun s n d ha => ?_⟩
  rw [← shiftIn_eq, ← xor_eq_ite_not, ← nextRxData_eq]
  exact edge_answer ha rfl

/-- Settles O19, by the row's test of the sampled bit against the parity register. -/
theorem rxParityResult : Obligations.RxParityResult :=
  ⟨fun d => decodeAfterEncode (.rxParity d) rfl,
    fun _ _ ha => ⟨fun hd => edge_answer ha (if_pos hd), fun hd => edge_answer ha (if_neg hd)⟩⟩

/-- A push into BF as one record update (R87). -/
theorem pushBf_eq_update (v : Byte) (s : State) : pushBf v s = { s with
    bf := if s.bf.full s.params.nB then s.bf else s.bf.put s.params.nB v
    errlog := if s.bf.full s.params.nB then s.errlog ++ [0x5#4] else s.errlog } := by
  unfold pushBf
  split <;> rfl

/-- `RX_STOP` at a good stop bit pushes the byte received (R76). -/
theorem exec_rxStop_true {s : State} (ha : s.attached = true) : exec (.rxStop true) s = .next { countPulse s with
    leState := leWaitStart
    bf := if s.bf.full s.params.nB then s.bf else s.bf.put s.params.nB s.current
    errlog := if s.bf.full s.params.nB then s.errlog ++ [0x5#4] else s.errlog } :=
  edge_answer ha (congrArg (fun t : State => { t with leState := leWaitStart }) (pushBf_eq_update _ (countPulse s)))

/-- Settles O20: the row tests the stop bit, then pushes, which tests the room in BF. -/
theorem rxStopResult : Obligations.RxStopResult := by
  refine ⟨fun d => decodeAfterEncode (.rxStop d) rfl, fun s ha => ⟨edge_answer ha rfl, fun hf => ?_, fun hf => ?_⟩⟩
  · have full : s.bf.full s.params.nB = true := beq_iff_eq.2 hf
    rw [exec_rxStop_true ha, if_pos full, if_pos full]; rfl
  · have room : ¬ s.bf.full s.params.nB = true := mt beq_iff_eq.1 hf
    rw [exec_rxStop_true ha, if_neg room, if_neg room]; rfl

/-- Settles O21: the row drives the bit shifted out, whatever is sampled. -/
theorem txDataResult : Obligations.TxDataResult := by
  refine ⟨fun n d => decodeAfterEncode (.txData n d) rfl, fun s n d ha => ?_⟩
  have shift : s.current >>> 1 = shiftIn false s.current := by simp [shiftIn_eq]
  rw [shift, ← xor_eq_ite_not, ← nextTxData_eq]
  exact edge_answer ha rfl

/-- Settles O22; only `TX_ACK` looks at the sampled bit. -/
theorem txTailResult : Obligations.TxTailResult := by
  refine ⟨fun d => decodeAfterEncode (.txParity d) rfl, fun d => decodeAfterEncode (.txStop d) rfl,
    fun d => decodeAfterEncode (.txAck d) rfl, fun s d ha => ⟨edge_answer ha rfl, edge_answer ha rfl, ?_⟩⟩
  cases d with
  | false => rw [if_neg Bool.false_ne_true, List.append_nil]; exact edge_answer ha rfl
  | true => exact edge_answer ha rfl

/-- Settles O23: while detached an edge decodes to `EDGE_DETACHED`, and every edge row is guarded by `attached`. -/
theorem detachedEdgeChangesNothing : Obligations.DetachedEdgeChangesNothing := by
  refine ⟨fun _ _ => rfl, fun s d rest ha he => ?_, fun s n d ha i hi => ?_⟩
  · rw [step_cons he]
    exact congrArg (exec · _) (fetch_edge_detached d ha)
  · have hn : ¬ s.attached = true := Bool.eq_false_iff.1 ha
    fin_cases hi <;> exact congrArg Host.Outcome.next (if_neg hn) -- the test of `attached` in `edgeStep`

end Sys2Proof.Machine

/-! ### What an attached edge leaves unchanged (R71) -/

namespace Sys2Proof.Machine

/-- The fields an attached edge may write besides the pulse counter: LE's and the producer's side of BF. -/
theorem Effect.edge_frame {s t : State} {d : Bool} (he : Effect (.edge d) s t) (ha : s.attached = true) :
    t = { countPulse s with
      leState := t.leState, current := t.current, parity := t.parity, dataDriveLow := t.dataDriveLow
      bf := { t.bf with tail := s.bf.tail }, errlog := t.errlog } := by
  cases he with
  | detached hd => rw [ha] at hd; cases hd
  | _ => rfl

/-- Any step raises at most one error (R140). -/
theorem Effect.errlog_eq_or_append {e : Event} {s t : State} (he : Effect e s t) :
    t.errlog = s.errlog ∨ ∃ c, t.errlog = s.errlog ++ [c] := by
  obtain h | ⟨c, -, rfl⟩ | ⟨c, -, rfl⟩ := he.errlog_cases
  · exact .inl h
  · exact .inr ⟨c, rfl⟩
  · exact .inr ⟨c, rfl⟩

/-- Settles O25: the edge's effects write only the fields of `Effect.edge_frame`. -/
theorem edgeFrame : Obligations.EdgeFrame := by
  intro s t d ho ha h
  obtain ⟨evs, pos, he⟩ := exists_step_effect h
  rw [ho] at he
  have frame := he.edge_frame ha
  refine ⟨?_, he.errlog_eq_or_append, ?_⟩
  · rw [frame]; rfl
  · rw [frame]
    exact ⟨rfl, rfl, rfl, rfl, rfl, rfl, rfl, rfl, rfl, rfl, rfl, rfl, rfl, rfl, rfl, rfl, rfl, rfl, rfl⟩

end Sys2Proof.Machine

/-! ### A ring as a queue (R86 to R91)

The entries of a ring stand at the `count` slots from the tail on, and the head is the slot after them. -/

namespace Sys2Proof.Machine

section
variable {w n : Nat} {r : Ring w}

/-- The slot of an entry, without the modulus. -/
theorem tail_add_mod (h : Ring.Legal n r) {i : Nat} (hi : i < n) :
    (r.tail + i) % n = if r.tail + i < n then r.tail + i else r.tail + i - n := by
  have ht := h.tail_lt
  split
  · exact Nat.mod_eq_of_lt ‹_›
  · rw [Nat.mod_eq_sub_mod (by omega), Nat.mod_eq_of_lt (by omega)]

/-- The head is the slot after the entries. -/
theorem tail_add_count_mod (h : Ring.Legal n r) : (r.tail + r.count n) % n = r.head := by
  have hh := h.head_lt
  have ht := h.tail_lt
  rw [tail_add_mod h (count_lt h), count_eq h]
  split_ifs <;> omega

/-- No entry stands at the head. -/
theorem tail_add_mod_ne_head (h : Ring.Legal n r) {i : Nat} (hi : i < r.count n) : (r.tail + i) % n ≠ r.head := by
  have hh := h.head_lt
  have ht := h.tail_lt
  rw [tail_add_mod h (hi.trans (count_lt h))]
  rw [count_eq h] at hi
  split_ifs at hi ⊢ <;> omega

/-- A ring is full with N-1 entries (R89, R91). -/
theorem full_iff_count (h : Ring.Legal n r) : r.full n = true ↔ r.count n = n - 1 := by
  have hh := h.head_lt
  have ht := h.tail_lt
  rw [Ring.full, beq_iff_eq, adv_eq hh, count_eq h]
  split_ifs <;> omega

/-- A push into a ring with room makes one entry more (R87, R90). -/
theorem count_put (h : Ring.Legal n r) (hf : r.full n = false) (v : BitVec w) : (r.put n v).count n = r.count n + 1 := by
  have hh := h.head_lt
  have ht := h.tail_lt
  have room : adv n r.head ≠ r.tail := beq_eq_false_iff_ne.1 hf
  rw [adv_eq hh] at room
  rw [count_eq (h.put v), count_eq h]
  simp only [Ring.put, adv_eq hh]
  split_ifs at room ⊢ <;> omega

/-- A push into a ring with room appends its value (R87). -/
theorem contents_put (h : Ring.Legal n r) (hf : r.full n = false) (v : BitVec w) :
    (r.put n v).contents n = r.contents n ++ [v] := by
  have old (i : Nat) (hi : i ∈ List.range (r.count n)) (d : BitVec w) :
      (r.put n v).slots.getD ((r.tail + i) % n) d = r.slots.getD ((r.tail + i) % n) d := by
    have apart := (tail_add_mod_ne_head h (List.mem_range.1 hi)).symm
    simp only [List.getD_eq_getElem?_getD, Ring.put, List.getElem?_set_ne apart]
  have new (d : BitVec w) : (r.put n v).slots.getD ((r.tail + r.count n) % n) d = v := by
    have named : r.head < r.slots.length := h.slots_length ▸ h.head_lt
    rw [tail_add_count_mod h, List.getD_eq_getElem?_getD, Ring.put, List.getElem?_set_self named, Option.getD_some]
  rw [Ring.contents, count_put h hf, List.range_succ, List.map_append]
  exact congrArg₂ _ (List.map_congr_left fun i hi => old i hi _) (congrArg (fun x => [x]) (new _))

end

end Sys2Proof.Machine

/-! ### A byte received (R53, R54, R73 to R76, R83, R85)

The start edge and the data edges of a frame are followed by one whole state, `bitsReceived`, indexed by the number of
data bits taken; the parity and stop edges then decide what becomes of the byte. -/

namespace Sys2Proof.Machine

/-! #### The receive edges -/

section
variable {s : State} {d : Bool} {evs : List Event}

/-- A placed edge on an attached line runs the row that its key spells (R57). -/
theorem step_edge_encoded {i : Instr} (ha : s.attached = true) (he : s.events = .edge d :: evs)
    (hw : i.wellFormed = true) (hk : encode i = .edge (edgeKey s.leState d)) :
    step s = exec i { s with events := evs } := by
  have row : decodeEdge (edgeKey s.leState d) = i := Except.ok.inj (hk ▸ decodeAfterEncode i hw)
  rw [step_edge ha he, row]

theorem step_rxStart (ha : s.attached = true) (hl : s.leState = leWaitStart) (he : s.events = .edge false :: evs) :
    step s = .next { countPulse s with parity := true, leState := leWaitData 0, events := evs } :=
  (step_edge_encoded (i := .rxStart false) ha he rfl (by rw [hl]; rfl)).trans (edge_answer ha rfl)

theorem step_badStart (ha : s.attached = true) (hl : s.leState = leWaitStart) (he : s.events = .edge true :: evs) :
    step s = .next { countPulse s with errlog := s.errlog ++ [0x1#4], events := evs } :=
  (step_edge_encoded (i := .rxStart true) ha he rfl (by rw [hl]; rfl)).trans (edge_answer ha rfl)

theorem step_rxData {n : BitVec 3} (ha : s.attached = true) (hl : s.leState = leWaitData n)
    (he : s.events = .edge d :: evs) : step s = .next { countPulse s with
      current := shiftIn d s.current, parity := Bool.xor s.parity d, leState := nextRxData n, events := evs } :=
  (step_edge_encoded (i := .rxData n d) ha he rfl (by rw [hl]; rfl)).trans (edge_answer ha rfl)

theorem step_rxParity (ha : s.attached = true) (hl : s.leState = leWaitParity) (he : s.events = .edge d :: evs)
    (hd : d = s.parity) : step s = .next { countPulse s with leState := leWaitStop, events := evs } :=
  (step_edge_encoded (i := .rxParity d) ha he rfl (by rw [hl]; rfl)).trans (edge_answer ha (if_pos hd))

theorem step_badParity (ha : s.attached = true) (hl : s.leState = leWaitParity) (he : s.events = .edge d :: evs)
    (hd : d ≠ s.parity) : step s = .next { countPulse s with
      leState := leWaitStart, errlog := s.errlog ++ [0x2#4], events := evs } :=
  (step_edge_encoded (i := .rxParity d) ha he rfl (by rw [hl]; rfl)).trans (edge_answer ha (if_neg hd))

theorem step_rxStop (ha : s.attached = true) (hl : s.leState = leWaitStop) (he : s.events = .edge true :: evs) :
    step s = .next { countPulse s with
      leState := leWaitStart
      bf := if s.bf.full s.params.nB then s.bf else s.bf.put s.params.nB s.current
      errlog := if s.bf.full s.params.nB then s.errlog ++ [0x5#4] else s.errlog
      events := evs } :=
  (step_edge_encoded (i := .rxStop true) ha he rfl (by rw [hl]; rfl)).trans
    (exec_rxStop_true (s := { s with events := evs }) ha)

end

/-! #### The start bit and the data bits -/

/-- The eight data edges of a frame, least significant bit first (R53). -/
def dataEdges (b : Byte) : List Event := (List.range 8).map fun i => .edge (b.getLsbD i)

theorem frameEdges_eq (b : Byte) :
    frameEdges b = .edge false :: (dataEdges b ++ [.edge (oddParity b), .edge true]) := rfl

theorem drop_dataEdges {k : Nat} (hk : k < 8) (b : Byte) :
    (dataEdges b).drop k = .edge (b.getLsbD k) :: (dataEdges b).drop (k + 1) := by
  rw [List.drop_eq_getElem_cons (by simpa [dataEdges] using hk)]
  simp [dataEdges]

/-- `le_state` after `k` data bits received (R56, R74). -/
def receiveStateAfter (k : Nat) : BitVec 5 := if k < 8 then leWaitData (BitVec.ofNat 3 k) else leWaitParity

theorem nextRxData_receiveStateAfter :
    ∀ k < 8, nextRxData (BitVec.ofNat 3 k) = receiveStateAfter (k + 1) := by decide

/-- Shifting a bit in moves an eight-bit window over a word one place up. -/
theorem shiftIn_window {n : Nat} (w : BitVec n) (k : Nat) :
    shiftIn (w.getLsbD (k + 8)) (w.extractLsb' k 8) = w.extractLsb' (k + 1) 8 := by
  refine BitVec.eq_of_getLsbD_eq fun i hi => ?_
  rw [shiftIn, BitVec.getLsbD_append]
  obtain h | rfl : i < 7 ∨ i = 7 := by omega
  · simp [h, hi, show 1 + i < 8 by omega, Nat.add_assoc]
  · simp [Nat.add_assoc]

theorem getLsbD_append_high {n m : Nat} (x : BitVec n) (y : BitVec m) (k : Nat) :
    (x ++ y).getLsbD (k + m) = x.getLsbD k := by
  simp [BitVec.getLsbD_append]

/-- `s` after the start bit and the first `k` data bits of `b`, with the offers `evs` left: `current` is a window that
slides from its old value over to the byte. -/
def bitsReceived (s : State) (b : Byte) (k : Nat) (evs : List Event) : State :=
  { s with
    leState := receiveStateAfter k
    current := (b ++ s.current).extractLsb' k 8
    parity := parityAfter b k
    pulseCount := (s.pulseCount + (k + 1)) % 2 ^ s.params.pulseW
    events := evs }

section
variable {s : State} {b : Byte}

/-- One more data edge takes the next bit (R74). -/
theorem step_bitsReceived {k : Nat} {evs : List Event} (ha : s.attached = true) (hk : k < 8) :
    step (bitsReceived s b k (.edge (b.getLsbD k) :: evs)) = .next (bitsReceived s b (k + 1) evs) := by
  have shift : shiftIn (b.getLsbD k) ((b ++ s.current).extractLsb' k 8) = (b ++ s.current).extractLsb' (k + 1) 8 := by
    rw [← getLsbD_append_high b s.current, shiftIn_window]
  have count : ((s.pulseCount + (k + 1)) % 2 ^ s.params.pulseW + 1) % 2 ^ s.params.pulseW =
      (s.pulseCount + (k + 1 + 1)) % 2 ^ s.params.pulseW := Nat.mod_add_mod _ _ _
  rw [step_rxData (s := bitsReceived s b k _) ha (if_pos hk) rfl, nextRxData_receiveStateAfter k hk]
  simp only [bitsReceived, countPulse, shift, count, parityAfter]

/-- The start edge and the first `k` data edges (R73, R74). -/
theorem run_bitsReceived {rest : List Event} (ha : s.attached = true) (hl : s.leState = leWaitStart)
    (he : s.events = .edge false :: (dataEdges b ++ rest)) {k : Nat} (hk : k ≤ 8) :
    run (k + 1) s = .next (bitsReceived s b k ((dataEdges b).drop k ++ rest)) := by
  induction k with
  | zero =>
    rw [run_succ_last (run_zero s) (step_rxStart ha hl he), bitsReceived, extract_low]
    rfl
  | succ k ih =>
    have before := ih (by omega)
    rw [drop_dataEdges hk] at before
    exact run_succ_last before (step_bitsReceived ha hk)

/-- After all eight the byte stands in `current`, its odd parity bit is expected next (R55, R74). -/
theorem run_nine_of_dataEdges {rest : List Event} (ha : s.attached = true) (hl : s.leState = leWaitStart)
    (he : s.events = .edge false :: (dataEdges b ++ rest)) :
    run 9 s = .next { s with
      leState := leWaitParity
      current := b
      parity := oddParity b
      pulseCount := (s.pulseCount + 9) % 2 ^ s.params.pulseW
      events := rest } := by
  rw [run_bitsReceived ha hl he le_rfl, bitsReceived, extract_high, parityAfter_eight]
  rfl

end

/-! #### Whole frames -/

/-- Settles O26: the byte received, then its parity edge and its stop edge. -/
theorem validFramePushesItsByte : Obligations.ValidFramePushesItsByte := by
  intro s b rest hl ha he
  have run9 := run_nine_of_dataEdges ha hl he
  have run10 := run_succ_last run9 (step_rxParity ha rfl rfl rfl)
  have run11 := run_succ_last run10 (step_rxStop ha rfl rfl)
  have count : (((s.pulseCount + 9) % 2 ^ s.params.pulseW + 1) % 2 ^ s.params.pulseW + 1) % 2 ^ s.params.pulseW =
      (s.pulseCount + 11) % 2 ^ s.params.pulseW := by simp [Nat.add_assoc]
  rw [← hl] at run11
  rw [← count]
  exact run11

/-- Settles O28: the byte received, its parity edge refused, and its stop edge taken as a bad start bit. -/
theorem badParityFrameIsDropped : Obligations.BadParityFrameIsDropped := by
  intro s b rest hl ha he
  have run9 := run_nine_of_dataEdges ha hl he
  have run10 := run_succ_last run9 (step_badParity ha rfl rfl (Bool.not_ne_self _))
  have run11 := run_succ_last run10 (step_badStart ha rfl rfl)
  exact ⟨_, run11, rfl, rfl, rfl, List.append_assoc ..⟩

/-- What a valid frame leaves to the next one (R76, R85). -/
theorem exists_run_frame {s : State} {b : Byte} {rest : List Event} (hl : s.leState = leWaitStart)
    (ha : s.attached = true) (he : s.events = frameEdges b ++ rest) :
    ∃ t, run 11 s = .next t ∧ t.params = s.params ∧ t.leState = leWaitStart ∧ t.attached = true ∧ t.events = rest ∧
      t.bf = (if s.bf.full s.params.nB then s.bf else s.bf.put s.params.nB b) ∧
      t.errlog = if s.bf.full s.params.nB then s.errlog ++ [0x5#4] else s.errlog :=
  ⟨_, validFramePushesItsByte s b rest hl ha he, rfl, hl, ha, rfl, rfl, rfl⟩

/-- Settles O27, frame by frame: a byte is appended while BF has room, and costs one error once BF holds N-1 entries. -/
theorem framesInSequenceFillByteRing : Obligations.FramesInSequenceFillByteRing := by
  rintro s bs rest - hr hl ha he
  induction bs generalizing s with
  | nil =>
    have most : (s.bf.contents s.params.nB).length ≤ s.params.nB - 1 := by
      rw [contents_length]; exact Nat.le_sub_one_of_lt (count_lt hr)
    refine ⟨s, rfl, hl, ha, he, ?_, ?_⟩
    · rw [List.append_nil, List.take_of_length_le most]
    · simp [Nat.sub_eq_zero_of_le most]
  | cons b bs ih =>
    obtain ⟨u, first, hp, hl', ha', he', hbf, herr⟩ :=
      exists_run_frame (b := b) (rest := bs.flatMap frameEdges ++ rest) hl ha (by simpa using he)
    rw [List.length_cons, Nat.mul_succ, Nat.add_comm, run_add first]
    cases hf : s.bf.full s.params.nB with
    | true =>
      rw [hf, if_pos rfl] at hbf herr
      obtain ⟨t, last, le, att, evs, entries, errors⟩ := ih u (by rwa [hp, hbf]) hl' ha' he'
      rw [hp, hbf] at entries errors
      have size : (s.bf.contents s.params.nB).length = s.params.nB - 1 :=
        (contents_length _).trans ((full_iff_count hr).1 hf)
      refine ⟨t, last, le, att, evs, ?_, ?_⟩
      · rw [entries, List.take_left' size, List.take_left' size]
      · rw [errors, herr, size, Nat.add_sub_cancel_left, Nat.add_sub_cancel_left, List.append_assoc]; rfl
    | false =>
      rw [hf, if_neg Bool.false_ne_true] at hbf herr
      obtain ⟨t, last, le, att, evs, entries, errors⟩ := ih u (by rw [hp, hbf]; exact hr.put b) hl' ha' he'
      rw [hp, hbf, contents_put hr hf] at entries errors
      refine ⟨t, last, le, att, evs, ?_, ?_⟩
      · rw [entries, List.append_assoc]; rfl
      · rw [errors, herr, List.length_append, Nat.add_assoc, Nat.add_comm [b].length]; rfl

end Sys2Proof.Machine

/-! ### The request-to-send and the priming of the line engine (R81, R82, R127, R128) -/

namespace Sys2Proof.Machine

/-- Settles O51: an enabled `FG_RTS` is `beginSend` of the byte at the front of the queue. -/
theorem fgRtsResult : Obligations.FgRtsResult := fun s hp hl => fgStep_rtsEnabled hp hl (beginSend s.txq0)

/-- Settles O53: the phase after priming waits, or ends the byte by `finishIfLast`. -/
theorem fgPrimeResult : Obligations.FgPrimeResult := by
  intro s hp
  have answer : exec .fgPrime s = .next (if s.fgWait then { txPrime s with fgPhase := fgInWait }
      else finishIfLast { txPrime s with fgPhase := fgIdle }) := by
    rw [exec, execFgPrime, (primeEnabled_iff s).2 hp, fgStep_enabled (by rw [hp]; decide)]
  rw [answer]
  cases hw : s.fgWait with
  | true => simp [txPrime, hw]
  | false => simp [finishIfLast_eq, txPrime, hw]

end Sys2Proof.Machine

/-! ### The rings as first-in first-out queues (R87 to R90) -/

namespace Sys2Proof.Machine

section
variable {w n : Nat} {r : Ring w}

/-- Only in a ring of one slot could `adv` return to the pointer it starts from (R86, R89). -/
theorem adv_ne_self (hn : 2 ≤ n) (p : Nat) : adv n p ≠ p := by
  intro same
  have hp : p < n := same ▸ Nat.mod_lt _ (Nat.zero_lt_of_lt hn)
  rw [adv_eq hp] at same
  split_ifs at same <;> omega

theorem full_iff : r.full n = true ↔ adv n r.head = r.tail := beq_iff_eq

theorem empty_iff : r.empty = true ↔ r.head = r.tail := beq_iff_eq

/-- The entry `i` slots from the tail after a pop is the entry `i + 1` slots from it before (R86, R88). -/
theorem drop_tail_add_mod (i : Nat) : ((r.drop n).tail + i) % n = (r.tail + (i + 1)) % n := by
  rw [Ring.drop, adv, Nat.mod_add_mod, Nat.add_assoc, Nat.add_comm 1]

/-- A pop takes one entry (R88, R90). -/
theorem count_drop (h : Ring.Legal n r) (hc : 0 < r.count n) : r.count n = (r.drop n).count n + 1 := by
  have hh := h.head_lt
  have ht := h.tail_lt
  rw [count_eq h] at hc ⊢
  rw [count_eq h.drop]
  simp only [Ring.drop, adv_eq ht]
  split_ifs at hc ⊢ <;> omega

/-- A pop takes the oldest entry and leaves the others in order (R88). -/
theorem contents_eq_front_cons (h : Ring.Legal n r) (hc : 0 < r.count n) :
    r.contents n = r.front :: (r.drop n).contents n := by
  rw [Ring.contents, count_drop h hc, List.range_succ_eq_map, List.map_cons, List.map_map]
  refine congrArg₂ List.cons ?_ (List.map_congr_left fun i _ => ?_)
  · rw [Nat.add_zero, Nat.mod_eq_of_lt h.tail_lt, Ring.front]
  · rw [drop_tail_add_mod]; rfl

end

/-- Settles O30: `adv` moves every pointer, so it cannot take the head to a tail that equals the head. -/
theorem fullAndEmptyExclude : Obligations.FullAndEmptyExclude := fun _ _ _ hn =>
  ⟨full_iff, empty_iff, fun ⟨hf, he⟩ => adv_ne_self hn _ ((full_iff.1 hf).trans (empty_iff.1 he).symm)⟩

/-- Settles O31: the count, push and pop lemmas for a ring, then the two branches of each ring's push. -/
theorem ringsAreQueues : Obligations.RingsAreQueues := by
  refine ⟨fun n w r v _ h => ⟨(contents_length r).symm, ?_, fun hf => ?_, fun hc => ?_⟩, fun s v e => ?_⟩
  · rw [contents_length]; exact full_iff_count h
  · exact ⟨contents_put h hf v, h.put v⟩
  · exact ⟨contents_eq_front_cons h hc, h.drop⟩
  · rw [pushBf_eq, pushKf_eq]
    exact ⟨fun full => if_pos full, fun room => if_neg (ne_true_of_eq_false room),
      fun full => if_pos full, fun room => if_neg (ne_true_of_eq_false room)⟩

end Sys2Proof.Machine

/-! ### The decoder's rows (R93 to R108)

Every row is a `decByteStep`, which with a byte in BF answers with the row's operation on the state after the pop. -/

namespace Sys2Proof.Machine

/-- With a byte in BF, `DEC_STEP` tests `dstate` and the byte as the decoder of R59 does. -/
theorem exec_decStep_eq_row {s : State} (hc : 0 < s.bfCount) :
    exec .decStep s = exec (decodeDec (decKey s.dstate s.bf.front)) s := by
  rw [exec, execDecStep, if_neg hc.ne']
  obtain h | h | ⟨ext, h⟩ | ⟨second, h⟩ | ⟨x, h⟩ := dstate_cases s.dstate
  · rw [h, decodeDec_waitStart, if_pos rfl]
    split_ifs <;> rfl
  · rw [h, decodeDec_waitExtended, if_neg (by decide), if_pos rfl]
    split_ifs <;> rfl
  · rw [h, decodeDec_break]
    cases ext
    all_goals
      simp [isPrefixByte] -- leaves the test of the byte for 0xE0 and 0xF0
      split_ifs <;> rfl
  · rw [h, decodeDec_pause]
    cases second
    all_goals
      simp -- leaves the tests of the byte for the fillers and 0x77
      split_ifs <;> rfl
  · rw [h, decodeDec_reserved]
    cases x <;> rfl

/-- Settles O5: `DEC_STEP` and the decoder make the same tests; with BF empty the first test of `DEC_STEP` ends it. -/
theorem decStepRunsItsRow : Obligations.DecStepRunsItsRow :=
  fun _ => ⟨fun _ hc hi => (exec_decStep_eq_row hc).trans (congrArg (exec · _) (Except.ok.inj hi)), fun h0 => if_pos h0⟩

/-- The answer of a decoder row with a byte in BF (R93), as `decByteStep` gives it. -/
theorem dec_answer {s t : State} (hc : 0 < s.bfCount) :
    (Host.Outcome.next (if 0 < s.bfCount then t else s) : Result) = .next t :=
  congrArg _ (if_pos hc)

/-- Settles O32: the rows whose operation on the popped state writes `dstate` or nothing. -/
theorem prefixAndPauseRowsResult : Obligations.PrefixAndPauseRowsResult := fun _ _ hc =>
  ⟨dec_answer hc, dec_answer hc, dec_answer hc, dec_answer hc, dec_answer hc, dec_answer hc, dec_answer hc,
    dec_answer hc⟩

/-- Settles O33: the rows whose operation on the popped state raises an error and idles the decoder. -/
theorem decodeErrorRowsResult : Obligations.DecodeErrorRowsResult := fun _ _ _ _ _ hc =>
  ⟨dec_answer hc, dec_answer hc, dec_answer hc⟩

/-! #### The rows that emit an event -/

/-- The rows that emit an event for the byte `b`, each with its lookup result and whether the event is a release. -/
def eventRows (p : Params) (b : Byte) : List (Instr × Option Byte × Bool) :=
  [(.dMake b, lookup p p.normalTable b, false), (.dExtMake b, lookup p p.extTable b, false),
    (.dBreak b, lookup p p.normalTable b, true), (.dExtBreak b, lookup p p.extTable b, true),
    (.dPause77B, some p.kcPause, false)]

section
variable {s : State} {x : Option Byte} {k : Byte} {rel : Bool}

theorem exec_eventRow {b : Byte} (hc : 0 < s.bfCount) :
    ∀ row ∈ eventRows s.params b, exec row.1 s = .next (emitEvent row.2.1 row.2.2 (popBf s)) := by
  simp only [eventRows, List.forall_mem_cons]
  exact ⟨dec_answer hc, dec_answer hc, dec_answer hc, dec_answer hc, dec_answer hc, List.forall_mem_nil _⟩

/-- An unmapped byte leaves no event unless `EMIT_UNMAPPED` (R95). -/
theorem emitEvent_unmapped (hx : x = none) (he : s.params.emitUnmapped = false) :
    emitEvent x rel s = { s with dstate := dWaitStart } := by
  simp [emitEvent, pushEvent, hx, he]

/-- `k` is the keycode the event of lookup result `x` carries: the one looked up, or `KC_INVALID` under
`EMIT_UNMAPPED` (R95). -/
def EventCarries (p : Params) (x : Option Byte) (k : Byte) : Prop :=
  x = some k ∨ (x = none ∧ p.emitUnmapped = true ∧ k = p.kcInvalid)

theorem pushEvent_eq_pushKf (h : EventCarries s.params x k) : pushEvent x rel s = pushKf (packEvent rel k) s := by
  obtain rfl | ⟨rfl, he, rfl⟩ := h
  · rfl
  · exact if_pos he

/-- A full KF drops the event with one error (R87, R95). -/
theorem emitEvent_of_full (h : EventCarries s.params x k) (hf : s.kf.full s.params.nK = true) :
    emitEvent x rel s = { s with dstate := dWaitStart, errlog := s.errlog ++ [0x8#4] } := by
  rw [emitEvent, pushEvent_eq_pushKf h, pushKf_eq, if_pos hf]
  rfl

/-- With room in KF the event is stored (R87, R95). -/
theorem emitEvent_of_room (h : EventCarries s.params x k) (hf : s.kf.full s.params.nK = false) :
    emitEvent x rel s = { s with dstate := dWaitStart, kf := s.kf.put s.params.nK (packEvent rel k) } := by
  rw [emitEvent, pushEvent_eq_pushKf h, pushKf_eq, if_neg (ne_true_of_eq_false hf)]

end

/-- Settles O34: each row emits its event on the popped state, and the three lemmas about `emitEvent` say what becomes
of it. -/
theorem eventRowsResult : Obligations.EventRowsResult := by
  intro s b hc bf row hrow
  rw [exec_eventRow hc row hrow]
  refine ⟨fun hx he => ?_, fun k hk => ⟨fun hf => ?_, fun hf => ?_⟩⟩
  · exact congrArg _ (emitEvent_unmapped hx he)
  · exact congrArg _ (emitEvent_of_full (s := popBf s) hk (full_iff.2 hf))
  · exact congrArg _ (emitEvent_of_room (s := popBf s) hk (Bool.eq_false_iff.2 (mt full_iff.1 hf)))

end Sys2Proof.Machine

/-! ### What the decoder writes, and who writes `dstate` (R93, R112) -/

namespace Sys2Proof.Machine

section
variable {e : Event} {s t : State}

@[simp] theorem finishIfLast_dstate (s : State) : (finishIfLast s).dstate = s.dstate := by rw [finishIfLast_frame]

/-- Only a `DEC_STEP` with a byte to consume writes `dstate` (R112). -/
theorem Effect.dstate_eq (he : Effect e s t) (h : e ≠ .decStep ∨ s.bfCount = 0) : t.dstate = s.dstate := by
  cases he with
  | decMove hc | decStore hc | keyOverflow hc | decodePrefix hc | decodePause hc =>
    exact absurd h (by simp [hc.ne'])
  | primeThenIdle | done => exact finishIfLast_dstate _
  | _ => rfl

/-- The fields a `DEC_STEP` that pops its byte may write: BF's tail, `dstate`, KF and the error history (R93). -/
theorem Effect.decStep_frame (he : Effect .decStep s t) (hc : 0 < s.bfCount) :
    t = { popBf s with dstate := t.dstate, kf := t.kf, errlog := t.errlog } := by
  cases he with
  | decIdle h0 => exact absurd h0 hc.ne'
  | _ => rfl

/-- A `DEC_STEP` stores at most one event, and none where it raises an error (R95). -/
theorem Effect.decStep_kf (he : Effect .decStep s t) :
    t.kf = s.kf ∨ (t.errlog = s.errlog ∧ ∃ ev, t.kf = s.kf.put s.params.nK ev) := by
  cases he with
  | decStore => exact .inr ⟨rfl, _, rfl⟩
  | _ => exact .inl rfl

end

/-- Settles O14, by the effects of the step offered. -/
theorem onlyDecStepWritesDstate : Obligations.OnlyDecStepWritesDstate := by
  intro s t h hw
  obtain ⟨evs, pos, he⟩ := exists_step_effect h
  exact he.dstate_eq hw

/-- Settles O35: with a legal `dstate` the step reaches one of its effects, whose frame, event and error are said by the
lemmas about `Effect`. -/
theorem decStepFrame : Obligations.DecStepFrame := by
  intro s hc hl
  obtain ⟨t, ht, he⟩ := execDecStep_next hc hl
  exact ⟨t, ht, he.decStep_frame hc, he.decStep_kf, he.errlog_eq_or_append⟩

end Sys2Proof.Machine

/-! ### Sequences of scan bytes (R109, R110)

While the decoder reads, only BF, `dstate` and the offers change until a row raises an error or emits an event; a run
is followed by the state `decoding` with these three written. -/

namespace Sys2Proof.Machine

/-- A legal ring with the entries `xs`, oldest first. -/
structure Ring.Holds {w : Nat} (n : Nat) (r : Ring w) (xs : List (BitVec w)) : Prop where
  legal : Ring.Legal n r
  contents_eq : r.contents n = xs

namespace Ring.Holds

variable {w n : Nat} {r : Ring w} {x : BitVec w} {xs : List (BitVec w)}

theorem count_pos (h : Ring.Holds n r (x :: xs)) : 0 < r.count n := by
  rw [← contents_length, h.contents_eq]
  exact Nat.succ_pos _

theorem front_cons_drop (h : Ring.Holds n r (x :: xs)) : r.front = x ∧ (r.drop n).contents n = xs :=
  List.cons.inj ((contents_eq_front_cons h.legal h.count_pos).symm.trans h.contents_eq)

/-- A pop leaves the entries after the oldest (R88). -/
theorem drop (h : Ring.Holds n r (x :: xs)) : Ring.Holds n (r.drop n) xs := ⟨h.legal.drop, h.front_cons_drop.2⟩

end Ring.Holds

/-- `s` with BF, `dstate` and the offers as given. -/
def State.decoding (s : State) (bf : Ring 8) (ds : BitVec 3) (evs : List Event) : State :=
  { s with bf := bf, dstate := ds, events := evs }

/-- The run of `k` offers of `DEC_STEP` in a row, the offers `rest` after them. -/
def State.polls (s : State) (k : Nat) (bf : Ring 8) (ds : BitVec 3) (rest : List Event) : Result :=
  run k (s.decoding bf ds (List.replicate k .decStep ++ rest))

section
variable {s : State} {bf : Ring 8} {ds : BitVec 3} {b : Byte} {left : List Byte} {rest : List Event} {k : Nat}

theorem run_eq_polls (hd : s.dstate = ds) (he : s.events = List.replicate k .decStep ++ rest) :
    run k s = s.polls k s.bf ds rest := by
  rw [State.polls, ← hd, ← he]
  rfl

/-- The first of the offers performs the operation of the row that `ds` and the oldest byte select, on the state with
that byte popped (R93). -/
theorem polls_succ {f : State → State} (h : bf.Holds s.params.nB (b :: left))
    (hrow : ∀ u, exec (decodeDec (decKey ds b)) u = decByteStep f u) :
    s.polls (k + 1) bf ds rest =
      run k (f (s.decoding (bf.drop s.params.nB) ds (List.replicate k .decStep ++ rest))) := by
  refine run_succ_next ?_
  rw [List.replicate_succ, List.cons_append, step_decByte (s := s.decoding bf ds _) h.count_pos rfl, State.decoding,
    h.front_cons_drop.1, hrow]
  exact decByteStep_enabled h.count_pos

/-- A row that only moves the decoder to `ds'`. -/
theorem polls_succ_move {ds' : BitVec 3} (h : bf.Holds s.params.nB (b :: left))
    (hrow : ∀ u, exec (decodeDec (decKey ds b)) u = decByteStep (fun s => { s with dstate := ds' }) u) :
    s.polls (k + 1) bf ds rest = s.polls k (bf.drop s.params.nB) ds' rest :=
  polls_succ h hrow

/-- A row of `D_PREFIX_ERR` (R104). -/
theorem polls_succ_prefixError (h : bf.Holds s.params.nB (b :: left))
    (hrow : ∀ u, exec (decodeDec (decKey ds b)) u = decByteStep prefixError u) :
    s.polls (k + 1) bf ds rest =
      { s with errlog := s.errlog ++ [0x6#4] }.polls k (bf.drop s.params.nB) dWaitStart rest :=
  polls_succ h hrow

end

/-! #### Break, then extension -/

section
variable {s : State}

/-- The push of an event neither reads nor writes BF, `dstate` and the offers. -/
theorem pushEvent_decoding (bf : Ring 8) (ds : BitVec 3) (evs : List Event) (x : Option Byte) (rel : Bool) :
    pushEvent x rel (s.decoding bf ds evs) = (pushEvent x rel s).decoding bf ds evs := by
  have push (e : KeyEvent) : pushKf e (s.decoding bf ds evs) = (pushKf e s).decoding bf ds evs := by
    rw [pushKf_eq e s, apply_ite (State.decoding · bf ds evs)]
    rfl
  cases x with
  | some k => exact push _
  | none =>
    rw [pushEvent, pushEvent, push, apply_ite (State.decoding · bf ds evs)]
    rfl

/-- What becomes of KF does not depend on the errors recorded before. -/
theorem pushEvent_kf_of_errlog (x : Option Byte) (rel : Bool) (log : List (BitVec 4)) :
    (pushEvent x rel { s with errlog := log }).kf = (pushEvent x rel s).kf := by
  have push (e : KeyEvent) : (pushKf e { s with errlog := log }).kf = (pushKf e s).kf := by rw [pushKf_kf, pushKf_kf]
  cases x with
  | some k => exact push _
  | none => rw [pushEvent, pushEvent, apply_ite State.kf, apply_ite State.kf, push]

end

/-- Settles O36: the row of F0 enters `D.WaitBreak`, where E0 is an error, so that `x` is read in `D.WaitStart`. -/
theorem breakThenExtensionFallsThrough : Obligations.BreakThenExtensionFallsThrough := by
  intro s x left rest _ legal hd hb h1 h2 h3 he
  have holds : s.bf.Holds s.params.nB (0xF0 :: 0xE0 :: x :: left) := ⟨legal, hb⟩
  have row (u : State) : exec (decodeDec (decKey dWaitStart x)) u =
      decByteStep (fun s => emitEvent (lookup s.params s.params.normalTable x) false s) u := by
    rw [decodeDec_waitStart, if_neg h1, if_neg h2, if_neg h3]; rfl
  have whole := calc
    run 3 s = s.polls 3 s.bf dWaitStart rest := run_eq_polls hd he
    _ = s.polls 2 _ dWaitBreak rest := polls_succ_move holds fun _ => rfl
    _ = { s with errlog := s.errlog ++ [0x6#4] }.polls 1 _ dWaitStart rest :=
      polls_succ_prefixError holds.drop fun _ => rfl
    _ = _ := polls_succ (s := { s with errlog := s.errlog ++ [0x6#4] }) holds.drop.drop row
  rw [emitEvent, pushEvent_decoding] at whole
  exact ⟨_, whole, rfl, holds.drop.drop.drop.contents_eq, rfl, pushEvent_kf_of_errlog .., rfl⟩

/-! #### The Pause sequence -/

section
variable {s : State} {bf : Ring 8} {left : List Byte}

/-- In the two Pause states a filler is popped and nothing else (R105). -/
theorem exec_filler {b : Byte} (hb : isFiller b = true) (second : Bool) (u : State) :
    exec (decodeDec (decKey (0b10#2 ++ BitVec.ofBool second) b)) u = decByteStep (fun s => s) u := by
  obtain (rfl | rfl) | rfl : (b = 0x14 ∨ b = 0xE1) ∨ b = 0xF0 := by simpa [isFiller] using hb
  all_goals rw [decodeDec_pause]; rfl

/-- Any number of fillers in a Pause state is only popped. -/
theorem exists_polls_fillers (second : Bool) {f : List Byte} (hf : ∀ b ∈ f, isFiller b = true)
    (h : bf.Holds s.params.nB (f ++ left)) (k : Nat) (rest : List Event) :
    ∃ bf', Ring.Holds s.params.nB bf' left ∧
      s.polls (f.length + k) bf (0b10#2 ++ BitVec.ofBool second) rest =
        s.polls k bf' (0b10#2 ++ BitVec.ofBool second) rest := by
  induction f generalizing bf with
  | nil => exact ⟨bf, h, by rw [List.length_nil, Nat.zero_add]⟩
  | cons b f ih =>
    obtain ⟨hb, hf⟩ := List.forall_mem_cons.1 hf
    obtain ⟨bf', h', hrun⟩ := ih hf h.drop
    rw [List.length_cons, Nat.succ_add]
    exact ⟨bf', h', (polls_succ h (exec_filler hb second)).trans hrun⟩

end

/-- Settles O37: E1 enters the first Pause state, the first 77 the second, and the second 77 emits the event. -/
theorem pauseSequenceGivesOneEvent : Obligations.PauseSequenceGivesOneEvent := by
  intro s f g left rest _ legal hd hf hg hb he
  have holds : s.bf.Holds s.params.nB (0xE1 :: (f ++ 0x77 :: (g ++ 0x77 :: left))) := ⟨legal, by simp [hb]⟩
  have count : f.length + g.length + 3 = f.length + (g.length + 1 + 1) + 1 := by omega
  obtain ⟨bf1, holds1, fillers1⟩ := exists_polls_fillers false hf holds.drop (g.length + 1 + 1) rest
  obtain ⟨bf2, holds2, fillers2⟩ := exists_polls_fillers true hg holds1.drop 1 rest
  have whole := calc
    run (f.length + g.length + 3) s = s.polls (f.length + g.length + 3) s.bf dWaitStart rest := run_eq_polls hd he
    _ = s.polls (f.length + (g.length + 1 + 1) + 1) s.bf dWaitStart rest := by rw [count]
    _ = s.polls (f.length + (g.length + 1 + 1)) _ dWaitFirst77 rest := polls_succ_move holds fun _ => rfl
    _ = s.polls (g.length + 1 + 1) bf1 dWaitFirst77 rest := fillers1
    _ = s.polls (g.length + 1) _ dWaitSecond77 rest := polls_succ_move holds1 fun _ => rfl
    _ = s.polls 1 bf2 dWaitSecond77 rest := fillers2
    _ = _ := polls_succ (f := fun s => emitEvent (some s.params.kcPause) false s) holds2 fun _ => rfl
  cases room : s.kf.full s.params.nK with
  | true =>
    exact ⟨_, whole.trans (congrArg _ (emitEvent_of_full (.inl rfl) room)), rfl, holds2.drop.contents_eq, rfl, rfl, rfl⟩
  | false =>
    exact ⟨_, whole.trans (congrArg _ (emitEvent_of_room (.inl rfl) room)), rfl, holds2.drop.contents_eq, rfl, rfl, rfl⟩

end Sys2Proof.Machine

/-! ### A latched report stays the report of the bitmap (R130)

Only three kinds of step could break it: one that writes the bitmap while a report is latched, which a free port rules
out; one that latches a report, which is that of the bitmap it leaves; and one that drops the report. -/

namespace Sys2Proof.Machine

/-- No report is latched while the port is free (R130). -/
theorem State.Inv.pendValid_eq_false {s : State} (h : s.Inv) (hp : s.PortFree) : s.pendValid = false :=
  Bool.eq_false_iff.2 fun hv =>
    Bool.false_ne_true (((fgBusy_eq_false_iff s).2 hp).symm.trans (h.pend_busy hv))

/-- The end of a byte delivers the latched report or leaves it latched (R128 to R130). -/
theorem State.PendCurrent.finishIfLast {s : State} (h : s.PendCurrent) : (finishIfLast s).PendCurrent := by
  rw [finishIfLast_eq]
  by_cases last : s.txqLen = 0
  · exact fun hv => absurd hv (by simp [last])
  · exact fun hv => h ((if_neg last).symm.trans hv)

theorem Effect.keeps_pendCurrent {e : Event} {s t : State} (he : Effect e s t) (h : s.Inv) (hc : s.PendCurrent) :
    t.PendCurrent := by
  cases he with
  | readAnswer hp => exact fun hv => absurd ((h.pendValid_eq_false hp).symm.trans hv) Bool.false_ne_true
  | readLock => exact fun _ => rfl
  | hostWrite | hostWriteWait | resetKbd | setTypematic | setLeds => exact fun hv => absurd hv Bool.false_ne_true
  | primeThenIdle | done => exact State.PendCurrent.finishIfLast hc
  | _ => exact hc

/-- Settles O10: taking the offer touches neither premise, and each effect of a step keeps the report current. -/
theorem pendingReportStaysCurrent : Obligations.PendingReportStaysCurrent := by
  intro s t h hc hs
  obtain ⟨evs, pos, he⟩ := exists_step_effect hs
  exact he.keeps_pendCurrent { h with } hc

end Sys2Proof.Machine

/-! ### The report of a bitmap (R64 to R66, R124, R125)

The key list of R124 is strictly ascending and holds exactly the pressed non-modifier keys; a slot of the report is read
off that list. -/

namespace Sys2Proof.Machine

/-! #### The fields of a report -/

/-- Reading above the last byte of a concatenation. -/
theorem extract_byte_above {n : Nat} (x : BitVec n) (y : Byte) (i : Nat) :
    (x ++ y).extractLsb' (i + 8) 8 = x.extractLsb' i 8 := by
  rw [BitVec.extractLsb'_append_eq_of_le (Nat.le_add_left 8 i), Nat.add_sub_cancel]

/-- Reading a slot back from a packed report, past the modifier byte and the slots below it (R66). -/
theorem slotOf_packReport (mods : Byte) (slot : Nat → Byte) {j : Nat} (hj : j < 6) :
    slotOf (packReport mods slot) j = slot j := by
  have above {n : Nat} (i : Nat) {x : BitVec n} {y b : Byte} (h : x.extractLsb' i 8 = b) :
      (x ++ y).extractLsb' (i + 8) 8 = b := (extract_byte_above x y i).trans h
  refine above (n := 48) (8 * j) ?_
  match j, hj with
  | 0, _ => exact extract_low _ _
  | 1, _ => exact above 0 (extract_low _ _)
  | 2, _ => exact above 8 (above 0 (extract_low _ _))
  | 3, _ => exact above 16 (above 8 (above 0 (extract_low _ _)))
  | 4, _ => exact above 24 (above 16 (above 8 (above 0 (extract_low _ _))))
  | 5, _ => exact above 32 (above 24 (above 16 (above 8 (extract_high _ _))))

theorem getLsbD_packReport (mods : Byte) (slot : Nat → Byte) {i : Nat} (hi : i < 8) :
    (packReport mods slot).getLsbD i = mods.getLsbD i :=
  (BitVec.getLsbD_append ..).trans (if_pos hi)

theorem slotOf_formatReport (p : Params) (bm : Bitmap) {j : Nat} (hj : j < 6) :
    slotOf (formatReport p bm) j = reportSlot p.kcRollover (pressedKeys bm) j :=
  slotOf_packReport _ _ hj

/-- The low byte of a report holds the eight modifier bits (R65). -/
theorem getLsbD_formatReport (p : Params) (bm : Bitmap) {i : Nat} (hi : i < 8) :
    (formatReport p bm).getLsbD i = bm.getLsbD (0xE0 + i) := by
  rw [formatReport, getLsbD_packReport _ _ hi, modifierByte, BitVec.getLsbD_extractLsb']
  simp [hi]

/-! #### The pressed keys -/

theorem isModifier_iff {k : Byte} : isModifier k = true ↔ 0xE0 ≤ k.toNat ∧ k.toNat ≤ 0xE7 := by
  revert k; decide

theorem mem_pressedKeys {bm : Bitmap} {k : Byte} :
    k ∈ pressedKeys bm ↔ bmRead bm k = true ∧ isModifier k = false := by
  have listed : k ∈ (List.range 256).map (BitVec.ofNat 8) :=
    List.mem_map.2 ⟨k.toNat, List.mem_range.2 k.isLt, by simp⟩
  simp [pressedKeys, listed, and_comm]

theorem pressedKeys_ascending (bm : Bitmap) : (pressedKeys bm).Pairwise (fun a b => a.toNat < b.toNat) := by
  refine List.Pairwise.filter _ (List.pairwise_map.2 (List.pairwise_lt_range.imp_of_mem fun ha hb hab => ?_))
  have ha := List.mem_range.1 ha
  have hb := List.mem_range.1 hb
  rwa [BitVec.toNat_ofNat, BitVec.toNat_ofNat, Nat.mod_eq_of_lt ha, Nat.mod_eq_of_lt hb]

theorem pressedKeys_nodup (bm : Bitmap) : (pressedKeys bm).Nodup :=
  (pressedKeys_ascending bm).imp fun hlt heq => hlt.ne (congrArg BitVec.toNat heq)

/-- The key list is the longest list of distinct pressed non-modifier keys. -/
theorem length_le_pressedKeys {bm : Bitmap} {ks : List Byte} (hn : ks.Nodup)
    (h : ∀ k ∈ ks, bmRead bm k = true ∧ isModifier k = false) : ks.length ≤ (pressedKeys bm).length :=
  (List.subperm_of_subset hn fun k hk => mem_pressedKeys.2 (h k hk)).length_le

/-- More than six keys are pressed when seven distinct ones are (R125). -/
theorem six_lt_pressedKeys_iff {bm : Bitmap} : 6 < (pressedKeys bm).length ↔
    ∃ ks : List Byte, ks.Nodup ∧ ks.length = 7 ∧ ∀ k ∈ ks, bmRead bm k = true ∧ isModifier k = false := by
  constructor
  · intro more
    exact ⟨(pressedKeys bm).take 7, (pressedKeys_nodup bm).sublist (List.take_sublist _ _),
      List.length_take_of_le more, fun k hk => mem_pressedKeys.1 (List.mem_of_mem_take hk)⟩
  · rintro ⟨ks, hn, seven, h⟩
    have := length_le_pressedKeys hn h
    omega

/-! #### The slots -/

section
variable {p : Params} {bm : Bitmap}

/-- Beyond six keys every slot holds the sentinel (R125). -/
theorem slotOf_formatReport_of_more (more : 6 < (pressedKeys bm).length) {j : Nat} (hj : j < 6) :
    slotOf (formatReport p bm) j = p.kcRollover :=
  (slotOf_formatReport p bm hj).trans (if_pos more)

/-- Up to six keys a slot holds 0x00 or a pressed key (R124). -/
theorem slotOf_formatReport_of_le (most : (pressedKeys bm).length ≤ 6) {j : Nat} (hj : j < 6) :
    slotOf (formatReport p bm) j = 0 ∨ slotOf (formatReport p bm) j ∈ pressedKeys bm := by
  rw [slotOf_formatReport p bm hj, reportSlot, if_neg (by omega)]
  by_cases h : j < (pressedKeys bm).length
  · rw [List.getD_eq_getElem _ _ h]; exact .inr (List.getElem_mem h)
  · exact .inl (List.getD_eq_default _ _ (by omega))

/-- Up to six keys each pressed one has a slot (R125). -/
theorem exists_slotOf_formatReport (most : (pressedKeys bm).length ≤ 6) {k : Byte} (hk : k ∈ pressedKeys bm) :
    ∃ j < 6, slotOf (formatReport p bm) j = k := by
  obtain ⟨j, hj, rfl⟩ := List.mem_iff_getElem.1 hk
  refine ⟨j, by omega, ?_⟩
  rw [slotOf_formatReport p bm (by omega), reportSlot, if_neg (by omega), List.getD_eq_getElem _ _ hj]

end

/-- Settles O48: the list is `pressedKeys`. -/
theorem reportLayout : Obligations.ReportLayout := fun p bm =>
  ⟨fun _ hi => getLsbD_formatReport p bm hi, pressedKeys bm, pressedKeys_ascending bm,
    fun _ => by rw [mem_pressedKeys, ← isModifier_iff, Bool.not_eq_true],
    fun _ hj => slotOf_formatReport p bm hj⟩

/-- Settles O49: with at most six keys pressed slot 0 holds 0x00 or a pressed key, which the sentinel is not. -/
theorem rolloverIffMoreThanSix : Obligations.RolloverIffMoreThanSix := by
  intro p bm
  have sentinels : (∃ ks : List Byte, ks.Nodup ∧ ks.length = 7 ∧ ∀ k ∈ ks, bmRead bm k = true ∧ isModifier k = false) →
      ∀ j < 6, slotOf (formatReport p bm) j = p.kcRollover :=
    fun seven _ hj => slotOf_formatReport_of_more (six_lt_pressedKeys_iff.2 seven) hj
  refine ⟨sentinels, fun few => ?_, fun hz hr => ⟨fun all => ?_, sentinels⟩, fun _ hi => getLsbD_formatReport p bm hi⟩
  · have most : (pressedKeys bm).length ≤ 6 := few _ (pressedKeys_nodup bm) fun _ => mem_pressedKeys.1
    exact ⟨fun k hk hm => exists_slotOf_formatReport most (mem_pressedKeys.2 ⟨hk, hm⟩),
      fun j hj => (slotOf_formatReport_of_le most hj).imp_right mem_pressedKeys.1⟩
  · by_contra few
    have most : (pressedKeys bm).length ≤ 6 := not_lt.1 (mt six_lt_pressedKeys_iff.1 few)
    have slot0 := slotOf_formatReport_of_le (p := p) most (j := 0) (by decide)
    rw [all 0 (by decide)] at slot0
    exact slot0.elim hz fun pressed => hr (mem_pressedKeys.1 pressed)

end Sys2Proof.Machine

/-! ### The host operations (R113 to R123)

A host row on a free port answers by the row's effect (`hostStep_free`), and `READ_REPORT` by one of four: nothing
pending, a Pressed event, a Released event of a lock key or of another key. -/

namespace Sys2Proof.Machine

/-! #### `AVAIL` and the operations that queue bytes -/

theorem heartbeatDue_iff (s : State) :
    s.heartbeatDue = true ↔ s.params.reportInterval ≠ 0 ∧ s.params.reportInterval ≤ s.hbCount := by
  simp [State.heartbeatDue]

/-- Settles O39: the three answers of `AVAIL` are one answer with the three counts. -/
theorem availResult : Obligations.AvailResult := by
  intro s a0 a1 hp
  simp only [← heartbeatDue_iff]
  rw [exec, execAvail, hostStep_free hp, State.kfCount]
  split_ifs <;> rfl

/-- Settles O42: each row is `startSeq` of its bytes. -/
theorem writeOpsQueueBytes : Obligations.WriteOpsQueueBytes := fun _ _ _ hp =>
  ⟨hostStep_free hp, hostStep_free hp, hostStep_free hp⟩

/-- The merged LED state bit by bit (R122): the values bit where the mask bit is 1. -/
theorem getLsbD_mergeLeds (leds : LedMask) (a0 a1 : Byte) {i : Nat} (hi : i < 3) :
    (mergeLeds leds a0 a1).getLsbD i = if a0.getLsbD i then a1.getLsbD i else leds.getLsbD i := by
  have bit (a : Byte) : (a.extractLsb' 0 3).getLsbD i = a.getLsbD i := by simp [hi]
  rw [mergeLeds, BitVec.getLsbD_or, BitVec.getLsbD_and, BitVec.getLsbD_and, BitVec.getLsbD_not, bit, bit]
  cases a0.getLsbD i <;> simp [hi]

/-- Settles O43: both rows are `startSeq` on the state with `leds` written, which for `SET_LEDS` become `mergeLeds`. -/
theorem resetAndSetLedsResult : Obligations.ResetAndSetLedsResult := by
  intro s a0 a1 hp
  refine ⟨?_, mergeLeds s.leds a0 a1, fun _ hi => getLsbD_mergeLeds s.leds a0 a1 hi, ?_⟩
  · rw [exec, execResetKbd, hostStep_free hp]; rfl
  · rw [exec, execSetLeds, hostStep_free hp]; rfl

/-- Settles O44: op 111 decodes to the reserved row, whose effect is the answer `Done` alone. -/
theorem reservedOpAnswersDone : Obligations.ReservedOpAnswersDone :=
  ⟨fun a0 a1 => decodeAfterEncode (.reservedOp111 a0 a1) rfl, fun _ _ _ hp => hostStep_free hp⟩

theorem exists_hostStep_of_mem_hostRows {a0 a1 : Byte} {i : Instr} (hi : i ∈ hostRows a0 a1) :
    ∃ f, exec i = hostStep f := by
  fin_cases hi <;> exact ⟨_, rfl⟩

/-- Settles O45: the eight rows are host steps, and a host step on a busy port has no move. -/
theorem hostWaitsWhileBusy : Obligations.HostWaitsWhileBusy := by
  intro s a0 a1 legal busy i hi
  obtain ⟨f, hf⟩ := exists_hostStep_of_mem_hostRows hi
  rw [hf, hostStep_busy legal ((fgBusy_eq_true_iff s).2 busy)]

/-! #### `READ_REPORT` -/

/-- The keycode of the oldest event after the hook (R43, R63, R117). -/
def State.frontKey (s : State) : Byte := transformKey s.params (s.kf.front.extractLsb' 0 8)

section
variable {s : State}

theorem exec_readReport_idle (hp : s.PortFree) (hc : s.kfCount = 0) (a0 a1 : Byte) :
    exec (.readReport a0 a1) s = .next (readIdle s) :=
  (hostStep_free hp).trans (congrArg _ (if_neg (by omega)))

theorem exec_readReport_pressed (hp : s.PortFree) (hc : 0 < s.kfCount) (he : s.kf.front.getLsbD 8 = false)
    (a0 a1 : Byte) : exec (.readReport a0 a1) s = .next (readPressed s.frontKey (popKf s)) :=
  (hostStep_free hp).trans (congrArg _ ((if_pos hc).trans (if_neg (ne_true_of_eq_false he))))

theorem exec_readReport_released (hp : s.PortFree) (hc : 0 < s.kfCount) (he : s.kf.front.getLsbD 8 = true)
    (a0 a1 : Byte) : exec (.readReport a0 a1) s = .next (readReleased s.frontKey (popKf s)) :=
  (hostStep_free hp).trans (congrArg _ ((if_pos hc).trans (if_pos he)))

/-- A Released event of a key with no LED is answered at once (R117). -/
theorem exec_readReport_released_other (hp : s.PortFree) (hc : 0 < s.kfCount) (he : s.kf.front.getLsbD 8 = true)
    (hk : lockLed s.params s.frontKey = none) (a0 a1 : Byte) :
    exec (.readReport a0 a1) s = .next (answerReport (formatReport s.params (bmWrite s.bm s.frontKey false))
      { popKf s with bm := bmWrite s.bm s.frontKey false }) := by
  rw [exec_readReport_released hp hc he, readReleased, popKf_params, hk]; rfl

/-- A Released event of a lock key starts the 0xED sequence with the report latched (R117, R131). -/
theorem exec_readReport_released_lock (hp : s.PortFree) (hc : 0 < s.kfCount) (he : s.kf.front.getLsbD 8 = true)
    {i : Nat} (hk : lockLed s.params s.frontKey = some i) (a0 a1 : Byte) :
    exec (.readReport a0 a1) s = .next (startSeq cmdSetLeds (some (ledByte (toggleLed s.leds i))) true
      (some (formatReport s.params (bmWrite s.bm s.frontKey false)))
      { popKf s with bm := bmWrite s.bm s.frontKey false, leds := toggleLed s.leds i, hbCount := 0 }) := by
  rw [exec_readReport_released hp hc he, readReleased, popKf_params, hk]; rfl

end

/-- Settles O40, by the three answers of `READ_REPORT` that queue no byte. -/
theorem readReportAnswersAtOnce : Obligations.ReadReportAnswersAtOnce := by
  intro s a0 a1 hp
  refine ⟨fun hc => exec_readReport_idle hp hc a0 a1, fun hc he => exec_readReport_pressed hp hc he a0 a1,
    fun hc he hs hn hl => exec_readReport_released_other hp hc he ?no_led a0 a1⟩
  case no_led => exact (if_neg hs).trans ((if_neg hn).trans (if_neg hl))

/-- The three lock keys are distinct, so each has its own LED (R6, R117). -/
theorem lockLed_lockKeys {p : Params} (h : Params.Valid p) :
    lockLed p p.kcScroll = some 0 ∧ lockLed p p.kcNum = some 1 ∧ lockLed p p.kcCaps = some 2 :=
  ⟨if_pos rfl, (if_neg h.scroll_ne_num.symm).trans (if_pos rfl),
    (if_neg h.scroll_ne_caps.symm).trans ((if_neg h.num_ne_caps.symm).trans (if_pos rfl))⟩

/-- Settles O41: each lock key has its LED, whose bit `toggleLed` flips; a Pressed event writes no LED. -/
theorem lockKeyReleaseTogglesLed : Obligations.LockKeyReleaseTogglesLed := by
  intro s a0 a1 hp valid hc k
  obtain ⟨scroll, num, caps⟩ := lockLed_lockKeys valid
  have released (i : Nat) (hk : lockLed s.params k = some i) (he : s.kf.front.getLsbD 8 = true) :=
    exec_readReport_released_lock hp hc he hk a0 a1
  have pressed (he : s.kf.front.getLsbD 8 = false) :
      ∃ t, exec (.readReport a0 a1) s = .next t ∧ t.leds = s.leds :=
    ⟨_, exec_readReport_pressed hp hc he a0 a1, rfl⟩
  simp only [List.forall_mem_cons]
  exact ⟨fun hk => ⟨released 0 (hk ▸ scroll), pressed⟩, fun hk => ⟨released 1 (hk ▸ num), pressed⟩,
    fun hk => ⟨released 2 (hk ▸ caps), pressed⟩, List.forall_mem_nil _⟩

end Sys2Proof.Machine

/-! ### Pause releases itself (R117, R132) -/

namespace Sys2Proof.Machine

/-- No slot of a report shows a key that is not pressed, unless it is the padding or the sentinel (R124, R125). -/
theorem slotOf_formatReport_ne {p : Params} {bm : Bitmap} {k : Byte} (hz : k ≠ 0) (hr : k ≠ p.kcRollover)
    (hk : bmRead bm k = false) {j : Nat} (hj : j < 6) : slotOf (formatReport p bm) j ≠ k := by
  rintro rfl
  by_cases more : 6 < (pressedKeys bm).length
  · exact hr (slotOf_formatReport_of_more more hj)
  · obtain padding | pressed := slotOf_formatReport_of_le (not_lt.1 more) hj
    · exact hz padding
    · exact absurd ((mem_pressedKeys.1 pressed).1.symm.trans hk) Bool.false_ne_true.symm

/-- The report of a Pressed Pause is that of the bitmap with its bit set; the bitmap left has it cleared (R117). -/
theorem readPressed_pause (s : State) :
    readPressed s.params.kcPause s = answerReport (formatReport s.params (bmWrite s.bm s.params.kcPause true))
      { s with bm := bmWrite (bmWrite s.bm s.params.kcPause true) s.params.kcPause false } := by
  rw [readPressed, if_pos rfl]

/-- Settles O50: the first report is that of the bitmap with the bit set, the second that of the bitmap with it cleared
again, the queue being empty then. -/
theorem pauseReleasesItself : Obligations.PauseReleasesItself := by
  intro s t a0 a1 hp one he hpause hmod hz hr _ legal ht
  have pending : 0 < s.kf.count s.params.nK := by omega
  have answered : t = answerReport (formatReport s.params (bmWrite s.bm s.params.kcPause true))
      { popKf s with bm := bmWrite (bmWrite s.bm s.params.kcPause true) s.params.kcPause false } := by
    rw [exec_readReport_pressed hp pending he, State.frontKey, hpause] at ht
    exact (Host.Outcome.next.inj ht).symm.trans (readPressed_pause (popKf s))
  have free : t.PortFree := by rw [answered]; exact hp
  have none_left : t.kfCount = 0 := by
    have : (s.kf.drop s.params.nK).count s.params.nK = 0 := by have := count_drop legal pending; omega
    rw [answered]; exact this
  have shown : bmRead (bmWrite s.bm s.params.kcPause true) s.params.kcPause = true := by
    rw [bmRead_bmWrite, if_pos rfl]
  have cleared : bmRead t.bm s.params.kcPause = false := by
    rw [answered]; exact (bmRead_bmWrite _ _ _ _).trans (if_pos rfl)
  have params : t.params = s.params := by rw [answered]; rfl
  refine ⟨⟨_, by rw [answered]; rfl, fun most => ?_⟩, cleared, _, _, exec_readReport_idle free none_left a0 a1, rfl,
    fun j hj => ?_⟩
  · exact exists_slotOf_formatReport most (mem_pressedKeys.2 ⟨shown, hmod⟩)
  · rw [params]; exact slotOf_formatReport_ne hz hr cleared hj

end Sys2Proof.Machine

/-! ### The sequencer and the timer (R126 to R130) -/

namespace Sys2Proof.Machine

/-- Settles O54: the wait ends by `finishIfLast`. -/
theorem fgDoneResult : Obligations.FgDoneResult := by
  intro s hp hl
  rw [exec, execFgDone, (doneEnabled_iff s).2 ⟨hp, hl⟩, fgStep_enabled (by rw [hp]; decide), finishIfLast_eq]

/-- Settles O55: each FG row tests its enabling condition, and otherwise passes. -/
theorem fgStepsWaitWhenDisabled : Obligations.FgStepsWaitWhenDisabled := by
  intro s legal
  have passes {enabled : Bool} (h : ¬ enabled = true) (f : State → State) : fgStep enabled f s = .next s := by
    rw [Bool.eq_false_iff.2 h, fgStep_disabled legal]
  refine ⟨fun hn => ?rts, fun hn => ?prime, fun hn => ?done⟩
  case rts =>
    have rts (b : Byte) := passes (mt (rtsEnabled_iff s).1 hn) (beginSend b)
    simp only [List.forall_mem_cons]
    exact ⟨rts _, rts _, rts _, rts _, List.forall_mem_nil _⟩
  case prime => rw [exec, execFgPrime, passes (mt (primeEnabled_iff s).1 hn)]
  case done => rw [exec, execFgDone, passes (mt (doneEnabled_iff s).1 hn)]

/-- Settles O57: `TICK` has no enabling condition, and the saturated count is all it writes. -/
theorem tickSaturates : Obligations.TickSaturates := fun _ => rfl

/-- An enabled `FG_RTS` begins sending the byte at the front of the queue, whichever row that byte names (R68, R127). -/
theorem exec_fetch_fgRts {s : State} (hp : s.fgPhase = fgIdle) (hl : s.txqLen ≠ 0) :
    exec (fetch .fgRts s) s = .next (beginSend s.txq0 s) := by
  have begins {b : Byte} (hb : s.txq0 = b) : fgStep s.rtsEnabled (beginSend b) s = .next (beginSend s.txq0 s) :=
    hb ▸ fgStep_rtsEnabled hp hl _
  rw [fetch, if_pos ((rtsEnabled_iff s).2 ⟨hp, hl⟩), decodeKbd]
  split_ifs with reset typematic leds
  · exact begins reset
  · exact begins typematic
  · exact begins leds
  · exact begins rfl

/-- A placed `WRITE` on a free port queues its byte (R118). -/
theorem step_write {s : State} {b a1 : Byte} {evs : List Event} (hp : s.PortFree)
    (he : s.events = .hostOp 0b010#3 b a1 :: evs) :
    step s = .next (startSeq b none false none { s with events := evs }) := by
  rw [step_cons he, fetch_hostOp (decodeAfterEncode (.write b a1) rfl)]
  exact hostStep_free hp

theorem step_fgRts {s : State} {evs : List Event} (hp : s.fgPhase = fgIdle) (hl : s.txqLen ≠ 0)
    (he : s.events = .fgRts :: evs) : step s = .next (beginSend s.txq0 { s with events := evs }) := by
  rw [step_cons he]
  exact exec_fetch_fgRts hp hl

/-- The `FG_PRIME` of the last byte, in a sequence without wait, ends the sequence (R128). -/
theorem exec_fgPrime_last {s : State} (hp : s.fgPhase = fgInRts) (hw : s.fgWait = false) (hl : s.txqLen = 0) :
    exec .fgPrime s = .next (fgFinish { txPrime s with fgPhase := fgIdle }) := by
  rw [exec, execFgPrime, (primeEnabled_iff s).2 hp, fgStep_enabled (by rw [hp]; decide),
    if_neg (ne_true_of_eq_false hw)]
  exact congrArg _ (if_pos hl)

theorem step_fgPrime_last {s : State} {evs : List Event} (hp : s.fgPhase = fgInRts) (hw : s.fgWait = false)
    (hl : s.txqLen = 0) (he : s.events = .fgPrime :: evs) :
    step s = .next (fgFinish { txPrime s with fgPhase := fgIdle, events := evs }) :=
  (step_cons he).trans (exec_fgPrime_last hp hw hl)

/-- Settles O58: the three steps of the sequence; with no byte left the priming ends it. -/
theorem writeIsDoneAtPrime : Obligations.WriteIsDoneAtPrime := by
  intro s b a1 rest hp he
  have none_left : (1 - 1 : BitVec 2) = 0 := by decide -- the queue's length after the one byte is taken
  have whole := calc
    run 3 s = run 2 _ := run_succ_next (step_write hp he)
    _ = run 1 _ := run_succ_next (step_fgRts hp.1 (startSeq_txqLen_ne_zero b none false none _) rfl)
    _ = .next _ := run_succ_next (step_fgPrime_last rfl rfl none_left rfl)
  exact ⟨_, whole, fgFinish_resp _, ⟨fgFinish_fgPhase _, (fgFinish_txqLen _).trans none_left⟩, fgFinish_leState _,
    fgFinish_current _, fgFinish_parity _, fgFinish_attached _, fgFinish_events _⟩

end Sys2Proof.Machine

/-! ### The reference tables and keycodes (R134, R136 to R138)

A keycode a lookup answers stands in the table, so a property of every lookup is a check of the entries listed. -/

namespace Sys2Proof.Machine

/-- The byte a table holds stands in one of its entries, or it is the default. -/
theorem tableEntry_mem (dflt : Byte) (t : Table) (b : Byte) :
    (b, tableEntry dflt t b) ∈ t ∨ tableEntry dflt t b = dflt := by
  induction t with
  | nil => exact .inr rfl
  | cons e t ih =>
    obtain ⟨i, v⟩ := e
    by_cases h : b = i
    · rw [tableEntry, if_pos h, h]
      exact .inl List.mem_cons_self
    · rw [tableEntry, if_neg h]
      exact ih.imp_left (List.mem_cons_of_mem _)

/-- A lookup answers only entries the table lists: the default, `KC_INVALID`, is never answered (R94). -/
theorem mem_of_lookup {p : Params} {t : Table} {b k : Byte} (h : lookup p t b = some k) : (b, k) ∈ t := by
  obtain ⟨mapped, answered⟩ := Option.ite_none_left_eq_some.1 h
  rw [← Option.some.inj answered]
  exact (tableEntry_mem _ t b).resolve_right mapped

/-- The reference parameters meet R6. -/
theorem reference_valid : Params.Valid Config.reference where
  nB_ge := by decide
  nK_ge := by decide
  hbW_ge := by decide
  pulseW_ge := by decide
  interval_lt := by decide
  scroll_ne_num := by decide
  scroll_ne_caps := by decide
  num_ne_caps := by decide

/-- The entries of both reference tables lie in the keycode domain, and none is `KC_PAUSE` (R134, R138). `List.Forall` is
decided entry by entry; the bounded `∀` would be decided over every pair of bytes. -/
theorem reference_entries : ∀ e ∈ Config.referenceNormal ++ Config.referenceExt,
    (e.2 ≤ 0xA4 ∨ isModifier e.2 = true) ∧ e.2 ≠ Config.reference.kcPause :=
  List.forall_iff_forall_mem.1 (by decide)

/-- The reference tables meet R134: the domain by the entries listed, the entries it names by reading them. -/
theorem reference_sourceTables : Params.SourceTables Config.reference where
  normal_domain _ _ h := (reference_entries _ (List.mem_append_left _ (mem_of_lookup h))).1
  ext_domain _ _ h := (reference_entries _ (List.mem_append_right _ (mem_of_lookup h))).1
  normal_a := by decide
  ext_home := by decide
  distinct := by decide
  scroll_entry := by decide
  num_entry := by decide
  caps_entry := by decide

/-- Settles O38: a lookup that answered `KC_PAUSE` would be an entry of its table. -/
theorem referenceTablesMeetConstraints : Obligations.ReferenceTablesMeetConstraints :=
  ⟨reference_valid, reference_sourceTables, fun _ =>
    ⟨fun h => (reference_entries _ (List.mem_append_left _ (mem_of_lookup h))).2 rfl,
      fun h => (reference_entries _ (List.mem_append_right _ (mem_of_lookup h))).2 rfl⟩⟩

end Sys2Proof.Machine

/-! ### The parameters never change (R6, R158) -/

namespace Sys2Proof.Machine

@[simp] theorem finishIfLast_params (s : State) : (finishIfLast s).params = s.params := by rw [finishIfLast_frame]

/-- No effect of a step writes the parameters (R158). -/
theorem Effect.params_eq {e : Event} {s t : State} (he : Effect e s t) : t.params = s.params := by
  cases he with
  | primeThenIdle | done => exact finishIfLast_params _
  | _ => rfl

/-- Settles O13, by the effects of the step offered. -/
theorem parametersNeverChange : Obligations.ParametersNeverChange := by
  intro s t h
  obtain ⟨evs, pos, he⟩ := exists_step_effect h
  exact he.params_eq

end Sys2Proof.Machine

/-! ### The reset state (R6, R155) -/

namespace Sys2Proof.Machine

theorem bmRead_zero (k : Byte) : bmRead 0 k = false := BitVec.getLsbD_zero

/-- Settles O7: the bitmap is read key by key, every other value stands in the definition. -/
theorem resetValues : Obligations.ResetValues :=
  ⟨rfl, rfl, rfl, rfl, rfl, rfl, rfl, rfl, rfl, rfl, rfl, bmRead_zero, rfl, rfl, rfl, rfl, rfl, rfl, rfl, rfl, rfl⟩

/-- A ring whose pointers name its first slot is legal (R86). -/
theorem Ring.legal_replicate {w n : Nat} (hn : 0 < n) (v : BitVec w) :
    Ring.Legal n { slots := List.replicate n v, head := 0, tail := 0 } :=
  ⟨List.length_replicate, hn, hn⟩

/-- Nothing is sent, queued or latched at reset, and each register holds its first legal value. -/
theorem reset_inv : State.reset.Inv where
  params_valid := reference_valid
  le_legal := rfl
  dstate_legal := rfl
  phase_legal := by decide
  txqLen_le := by decide
  bf_legal := Ring.legal_replicate (by decide) 0
  kf_legal := Ring.legal_replicate (by decide) 0
  pulse_lt := Nat.two_pow_pos _
  hb_lt := Nat.two_pow_pos _
  rts_iff := by decide
  attached_eq := rfl
  clk_eq := rfl
  data_in_rts := fun hr => absurd hr Bool.false_ne_true
  data_released := fun _ _ => rfl
  pend_busy := fun hv => absurd hv Bool.false_ne_true

/-- Settles O8: the latched-report invariant holds because no report is latched. -/
theorem resetMeetsInvariants : Obligations.ResetMeetsInvariants :=
  ⟨reset_inv, fun hv => absurd hv Bool.false_ne_true⟩

end Sys2Proof.Machine

/-! ### The wait for the device's edges (R113, R129, R159)

While the sequencer waits, the host and the other FG steps are not enabled, and `FG_DONE` is not while LE is sending.
So only an edge can move LE on, and a run without one keeps `State.AwaitsEdges`. -/

namespace Sys2Proof.Machine

/-- The sequencer waits for a byte that LE is still sending (R129). -/
structure State.AwaitsEdges (s : State) : Prop where
  inv : s.Inv
  phase : s.fgPhase = fgInWait
  sends : isSendState s.leState = true

namespace State.AwaitsEdges

variable {s : State}

theorem fgBusy (h : s.AwaitsEdges) : s.fgBusy = true :=
  (fgBusy_eq_true_iff s).2 (.inl (by rw [h.phase]; decide))

theorem not_portFree (h : s.AwaitsEdges) : ¬ s.PortFree := fun hp =>
  Bool.false_ne_true (((fgBusy_eq_false_iff s).2 hp).symm.trans h.fgBusy)

theorem takeOffer (h : s.AwaitsEdges) (evs : List Event) : AwaitsEdges { s with events := evs } :=
  ⟨{ h.inv with }, h.phase, h.sends⟩

end State.AwaitsEdges

@[simp] theorem finishIfLast_events (s : State) : (finishIfLast s).events = s.events := by rw [finishIfLast_frame]

/-- No effect of a step places or takes an offer. -/
theorem Effect.events_eq {e : Event} {s t : State} (he : Effect e s t) : t.events = s.events := by
  cases he with
  | primeThenIdle | done => exact finishIfLast_events _
  | _ => rfl

/-- No step but an `EDGE` moves the phase or LE while LE sends the byte waited for, and none answers the host. -/
theorem Effect.stalls {e : Event} {s t : State} (he : Effect e s t) (h : s.AwaitsEdges) (hedge : ∀ d, e ≠ .edge d) :
    t.fgPhase = s.fgPhase ∧ t.leState = s.leState ∧ t.resp = s.resp := by
  cases he with
  | decIdle | decMove | decKeep | decStore | keyOverflow | decodePrefix | decodePause
  | hostWait | rtsWait | primeWait | doneWait | tick => exact ⟨rfl, rfl, rfl⟩
  | avail hp | readIdle hp | readAnswer hp | readLock hp | hostWrite hp | hostWriteWait hp | resetKbd hp
  | setTypematic hp | setLeds hp | reservedOp hp => exact absurd hp h.not_portFree
  | rts hp | primeThenWait hp | primeThenIdle hp => exact absurd (hp.symm.trans h.phase) (by decide)
  | done _ hl => exact absurd (hl.symm.trans h.sends) Bool.false_ne_true
  | _ => exact absurd rfl (hedge _)

/-- A placed step that is no `EDGE` is taken, and the wait goes on. -/
theorem State.AwaitsEdges.exists_step {s : State} {e : Event} {evs : List Event} (h : s.AwaitsEdges)
    (hs : s.events = e :: evs) (hedge : ∀ d, e ≠ .edge d) :
    ∃ t, step s = .next t ∧ t.AwaitsEdges ∧ t.events = evs ∧ t.resp = s.resp := by
  obtain ⟨t, ht⟩ := everyLegalStateSteps s h.inv
  have he : Effect e { s with events := evs } t := effect_of_exec_fetch ((step_cons hs).symm.trans ht)
  have h' := h.takeOffer evs
  obtain ⟨phase, le, resp⟩ := he.stalls h' hedge
  exact ⟨t, ht, ⟨he.keeps_inv h'.inv, phase.trans h.phase, le ▸ h.sends⟩, he.events_eq, resp⟩

/-- A run of placed steps with no `EDGE` among them is taken, and the wait goes on. -/
theorem State.AwaitsEdges.exists_run {evs rest : List Event} (hedge : ∀ e ∈ evs, ∀ d, e ≠ .edge d) {s : State}
    (h : s.AwaitsEdges) (hs : s.events = evs ++ rest) :
    ∃ t, run evs.length s = .next t ∧ t.AwaitsEdges ∧ t.events = rest ∧ t.resp = s.resp := by
  induction evs generalizing s with
  | nil => exact ⟨s, run_zero s, h, hs, rfl⟩
  | cons e evs ih =>
    obtain ⟨hfirst, hlater⟩ := List.forall_mem_cons.1 hedge
    obtain ⟨u, hu, hawaits, hevents, hresp⟩ := h.exists_step hs hfirst
    obtain ⟨t, ht, hawaits', hevents', hresp'⟩ := ih hlater hawaits hevents
    exact ⟨t, (run_succ_next hu).trans ht, hawaits', hevents', hresp'.trans hresp⟩

/-- Settles O59: every state of the run awaits an edge, and none of its steps answers the host. -/
theorem waitHangsWithoutEdges : Obligations.WaitHangsWithoutEdges := by
  intro s evs rest hinv hphase hsends hedge hs
  obtain ⟨t, ht, h, hevents, hresp⟩ := State.AwaitsEdges.exists_run hedge ⟨hinv, hphase, hsends⟩ hs
  exact ⟨t, ht, hevents, h.phase, h.sends, h.fgBusy, hresp⟩

end Sys2Proof.Machine
